-- ==== Sys2Proof/Word.lean ====
section
/-! DEFINITION. The word types of the block (00_scope R9): levels, bytes and the one 16-bit width. -/

namespace Sys2Proof

/-- One bit: a level on a line or a bit of a byte; `true` is 1 (R9). -/
abbrev Bit := Bool

/-- A byte, bit 7 the most significant (R9). -/
abbrev Byte := BitVec 8

/-- A 16-bit value, the widest the block handles (R129). -/
abbrev Half := BitVec 16

end Sys2Proof
end

