-- ==== Sys2Proof/Syntax.lean ====
section
/-! DEFINITION. The instructions: one constructor per row of `spec/opcode_table.json` (30_encoding R92, R99). The
call-level operations without a row (40_bitclock, 42_debugentry) are `Machine.Call`s. -/

namespace Sys2Proof

/-- The eleven debug commands (R92) and the six native payloads a client ships through them (R99). -/
inductive Instr where
  /-- CHIP_ERASE, 0x14 (R161). -/
  | chipErase
  /-- WR_CONFIG, 0x1D, the configuration byte (R158). -/
  | wrConfig (config : Byte)
  /-- RD_CONFIG, 0x24 (R159). -/
  | rdConfig
  /-- GET_PC, 0x28 (R160). -/
  | getPc
  /-- READ_STATUS, 0x34 (R150). -/
  | readStatus
  /-- HALT, 0x44 (R152). -/
  | halt
  /-- RESUME, 0x4C (R153). -/
  | resume
  /-- DEBUG_INSTR_1, 0x55, a one-byte native instruction (R155). -/
  | debugInstr1 (b0 : Byte)
  /-- DEBUG_INSTR_2, 0x56, a two-byte native instruction (R156). -/
  | debugInstr2 (b0 b1 : Byte)
  /-- DEBUG_INSTR_3, 0x57, a three-byte native instruction (R157). -/
  | debugInstr3 (b0 b1 b2 : Byte)
  /-- GET_CHIP_ID, 0x68 (R151). -/
  | getChipId
  /-- set_pointer(addr16), payload 0x90 hi lo (R211). -/
  | setPointer (addr : Half)
  /-- clear_accumulator(), payload 0xE4 (R212). -/
  | clearAccumulator
  /-- load-accumulator-immediate, payload 0x74 imm (R216). -/
  | loadAccumulatorImmediate (imm : Byte)
  /-- read_code_byte(), payload 0x93 (R213). -/
  | readCodeByte
  /-- increment_pointer(), payload 0xA3 (R214). -/
  | incrementPointer
  /-- write_special_register(addr8, value8), payload 0x75 addr imm (R215). -/
  | writeSpecialRegister (addr imm : Byte)
  deriving DecidableEq, Repr

/-- Which byte an encoding's first byte is: a frame's opcode byte (R90), or the first request byte of the
carrying DEBUG_INSTR frame (R99, opcode table's notes). -/
inductive Space where
  | frame
  | payload
  deriving DecidableEq, Repr

end Sys2Proof
end

