-- ==== Sys2Proof/Decode.lean ====
section
/-! DEFINITION. The command table, the payload table, the decoder and the encoder (30_encoding R90 to R103).
The two tables are the only place an opcode, a payload byte or a byte count is written. -/

namespace Sys2Proof

/-- A record of `CmdTable` (10_state R27): the ranges 0 to 3 and 0 to 2 are the record type's. -/
structure CmdRecord where
  opcode : Byte
  nreq : Fin 4
  nresp : Fin 3
  deriving DecidableEq, Repr

/-! ### The eleven records (R92) -/

def Cmd.chipErase : CmdRecord := ⟨0x14, 0, 1⟩
def Cmd.wrConfig : CmdRecord := ⟨0x1D, 1, 1⟩
def Cmd.rdConfig : CmdRecord := ⟨0x24, 0, 1⟩
def Cmd.getPc : CmdRecord := ⟨0x28, 0, 2⟩
def Cmd.readStatus : CmdRecord := ⟨0x34, 0, 1⟩
def Cmd.halt : CmdRecord := ⟨0x44, 0, 1⟩
def Cmd.resume : CmdRecord := ⟨0x4C, 0, 1⟩
def Cmd.debugInstr1 : CmdRecord := ⟨0x55, 1, 1⟩
def Cmd.debugInstr2 : CmdRecord := ⟨0x56, 2, 1⟩
def Cmd.debugInstr3 : CmdRecord := ⟨0x57, 3, 1⟩
def Cmd.getChipId : CmdRecord := ⟨0x68, 0, 2⟩

/-- A row of the opcode map: a record, and the instruction its request bytes spell (R94). -/
structure FrameRow where
  record : CmdRecord
  build : Byte → Byte → Byte → Instr

/-- The opcode map, in the order of R92. -/
def frameRows : List FrameRow :=
  [ ⟨Cmd.chipErase, fun _ _ _ => .chipErase⟩,
    ⟨Cmd.wrConfig, fun c _ _ => .wrConfig c⟩,
    ⟨Cmd.rdConfig, fun _ _ _ => .rdConfig⟩,
    ⟨Cmd.getPc, fun _ _ _ => .getPc⟩,
    ⟨Cmd.readStatus, fun _ _ _ => .readStatus⟩,
    ⟨Cmd.halt, fun _ _ _ => .halt⟩,
    ⟨Cmd.resume, fun _ _ _ => .resume⟩,
    ⟨Cmd.debugInstr1, fun b0 _ _ => .debugInstr1 b0⟩,
    ⟨Cmd.debugInstr2, fun b0 b1 _ => .debugInstr2 b0 b1⟩,
    ⟨Cmd.debugInstr3, fun b0 b1 b2 => .debugInstr3 b0 b1 b2⟩,
    ⟨Cmd.getChipId, fun _ _ _ => .getChipId⟩ ]

/-- `CmdTable` (10_state R27), read-only. -/
def cmdTable : List CmdRecord := frameRows.map FrameRow.record

/-- `CmdTable[op]`: the record whose opcode is `op`, matched on all eight bits (R91), or none (R100). -/
def cmdLookup (op : Byte) : Option CmdRecord := cmdTable.find? fun r => r.opcode == op

/-- A row of the payload table (R99): the first payload byte, how many bytes follow, the carrying command. -/
structure PayloadRow where
  first : Byte
  extra : Nat
  carrier : CmdRecord
  build : Byte → Byte → Instr

/-- The six native payloads (R99). The 16-bit address goes high byte first (20_memory R66). -/
def payloadRows : List PayloadRow :=
  [ ⟨0x90, 2, Cmd.debugInstr3, fun hi lo => .setPointer (hi ++ lo)⟩,
    ⟨0xE4, 0, Cmd.debugInstr1, fun _ _ => .clearAccumulator⟩,
    ⟨0x74, 1, Cmd.debugInstr2, fun imm _ => .loadAccumulatorImmediate imm⟩,
    ⟨0x93, 0, Cmd.debugInstr1, fun _ _ => .readCodeByte⟩,
    ⟨0xA3, 0, Cmd.debugInstr1, fun _ _ => .incrementPointer⟩,
    ⟨0x75, 2, Cmd.debugInstr3, fun addr imm => .writeSpecialRegister addr imm⟩ ]

/-- The payload row whose first byte is `b`. -/
def payloadLookup (b : Byte) : Option PayloadRow := payloadRows.find? fun r => r.first == b

/-- Why bytes are no encoding. -/
inductive Reject where
  /-- No byte at all. -/
  | empty
  /-- The opcode byte has no record in `CmdTable` (R100). -/
  | unknownOpcode
  /-- The first payload byte is none of the six of R99. -/
  | unknownPayload
  /-- Fewer operand bytes than the row's count (R102, R141 (b)). -/
  | tooShort
  /-- More operand bytes than the row's count (R141 (b)). -/
  | tooLong
  deriving DecidableEq, Repr

/-- The high and the low byte of a 16-bit operand, the high byte first (R99, 20_memory R66). -/
def hiByte (x : Half) : Byte := x.extractLsb' 8 8

@[inherit_doc hiByte]
def loByte (x : Half) : Byte := x.extractLsb' 0 8

/-- Reads one frame off the front of a byte string: the opcode byte gives the record, the record the length
(R90, R91, R102). Answers the instruction and the bytes after it. -/
def decodeFrame : List Byte → Except Reject (Instr × List Byte)
  | [] => .error .empty
  | op :: rest =>
    match frameRows.find? fun row => row.record.opcode == op with
    | none => .error .unknownOpcode
    | some row =>
      if rest.length < row.record.nreq.val then .error .tooShort
      else .ok (row.build (rest.getD 0 0) (rest.getD 1 0) (rest.getD 2 0), rest.drop row.record.nreq.val)

/-- Reads one native payload off the front of a byte string (R99). -/
def decodePayload : List Byte → Except Reject (Instr × List Byte)
  | [] => .error .empty
  | b :: rest =>
    match payloadLookup b with
    | none => .error .unknownPayload
    | some row =>
      if rest.length < row.extra then .error .tooShort
      else .ok (row.build (rest.getD 0 0) (rest.getD 1 0), rest.drop row.extra)

/-- Reads one encoding of the given space. -/
def decode : Space → List Byte → Except Reject (Instr × List Byte)
  | .frame, bytes => decodeFrame bytes
  | .payload, bytes => decodePayload bytes

/-- The instruction a byte string spells exactly, with nothing left over: what a client's call gives (R141). -/
def decodeWhole (sp : Space) (bytes : List Byte) : Except Reject Instr :=
  match decode sp bytes with
  | .error e => .error e
  | .ok (i, []) => .ok i
  | .ok (_, _ :: _) => .error .tooLong

/-- The space an instruction's row is in. -/
def Instr.space : Instr → Space
  | .chipErase | .wrConfig _ | .rdConfig | .getPc | .readStatus | .halt | .resume | .debugInstr1 _
  | .debugInstr2 _ _ | .debugInstr3 _ _ _ | .getChipId => .frame
  | .setPointer _ | .clearAccumulator | .loadAccumulatorImmediate _ | .readCodeByte | .incrementPointer
  | .writeSpecialRegister _ _ => .payload

/-- The bytes of the instruction's row: a command's opcode and request bytes (R92, R94), a payload's bytes (R99). -/
def encode : Instr → List Byte
  | .chipErase => [0x14]
  | .wrConfig c => [0x1D, c]
  | .rdConfig => [0x24]
  | .getPc => [0x28]
  | .readStatus => [0x34]
  | .halt => [0x44]
  | .resume => [0x4C]
  | .debugInstr1 b0 => [0x55, b0]
  | .debugInstr2 b0 b1 => [0x56, b0, b1]
  | .debugInstr3 b0 b1 b2 => [0x57, b0, b1, b2]
  | .getChipId => [0x68]
  | .setPointer addr => [0x90, hiByte addr, loByte addr]
  | .clearAccumulator => [0xE4]
  | .loadAccumulatorImmediate imm => [0x74, imm]
  | .readCodeByte => [0x93]
  | .incrementPointer => [0xA3]
  | .writeSpecialRegister addr imm => [0x75, addr, imm]

/-- The command a native payload of `n` bytes is carried by: DEBUG_INSTR_n (R94, D40). -/
def carrierOf : Nat → CmdRecord
  | 1 => Cmd.debugInstr1
  | 2 => Cmd.debugInstr2
  | _ => Cmd.debugInstr3

/-- The bytes the block sends for the instruction, in wire order: the frame without its response (R90, R210). -/
def wireBytes (i : Instr) : List Byte :=
  match i.space with
  | .frame => encode i
  | .payload => (carrierOf (encode i).length).opcode :: encode i

/-- The record of the command whose exchange the instruction is (R92, R99). -/
def Instr.record : Instr → CmdRecord
  | .chipErase => Cmd.chipErase
  | .wrConfig _ => Cmd.wrConfig
  | .rdConfig => Cmd.rdConfig
  | .getPc => Cmd.getPc
  | .readStatus => Cmd.readStatus
  | .halt => Cmd.halt
  | .resume => Cmd.resume
  | .debugInstr1 _ | .clearAccumulator | .readCodeByte | .incrementPointer => Cmd.debugInstr1
  | .debugInstr2 _ _ | .loadAccumulatorImmediate _ => Cmd.debugInstr2
  | .debugInstr3 _ _ _ | .setPointer _ | .writeSpecialRegister _ _ => Cmd.debugInstr3
  | .getChipId => Cmd.getChipId

/-! ### Table words: bit 0 is the least significant bit of the first byte -/

/-- The longest encoding has four bytes (DEBUG_INSTR_3); the first byte is the lowest of `w`, and every bit above
`nbits` is 0. -/
def tableBytes (nbits w : Nat) : List Byte :=
  let v := w % 2 ^ nbits
  [BitVec.ofNat 8 v, BitVec.ofNat 8 (v >>> 8), BitVec.ofNat 8 (v >>> 16), BitVec.ofNat 8 (v >>> 24)]

/-- The space a table word is read in: the frame's where its first byte is a known opcode, else the payload's. No
byte is first in both tables. DESIGN CHOICE (log 18). -/
def tableSpace (first : Byte) : Space :=
  match cmdLookup first with
  | some _ => .frame
  | none => .payload

/-- Decodes a table word, bytes after the instruction being left unread. -/
def decodeTableBytes (bytes : List Byte) : Except Reject (Instr × List Byte) :=
  match bytes with
  | [] => .error .empty
  | b :: rest => decode (tableSpace b) (b :: rest)

/-- The instruction the decoder reads from a table word. -/
def decodeTableWord (nbits w : Nat) : Option Instr :=
  match decodeTableBytes (tableBytes nbits w) with
  | .ok (i, _) => some i
  | .error _ => none

/-- How many bytes the encoding that begins with this byte has; 1 where no row begins with it. -/
def encodingLength (first : Byte) : Nat :=
  match cmdLookup first with
  | some r => 1 + r.nreq.val
  | none =>
    match payloadLookup first with
    | some row => 1 + row.extra
    | none => 1

end Sys2Proof
end

