-- ==== Sys2Proof/Config.lean ====
section
/-! DEFINITION. What an implementation fixes (00_scope R8) and the one free value (20_memory R80).
The OPEN family byte and the free value are opaque: no proof can see what they are; the OPEN durations are arguments of
the statements that speak of time. -/

namespace Sys2Proof

/-- The named durations a `Wait` is asked for (00_scope R8). A wait on the wire carries the name, not a number
(20_memory R77: a model carries the durations as symbols). -/
inductive Delay where
  /-- `T_HALF`, clock half-period. -/
  | tHalf
  /-- `T_DIR`, direction-change settle delay. -/
  | tDir
  /-- `T_PRE`, pre-read settle delay of `read_byte`. -/
  | tPre
  /-- `T_RESET_HOLD`, reset held low before the two clock edges. -/
  | tResetHold
  /-- `T_STARTUP`, settle after releasing reset. -/
  | tStartup
  /-- `T_POLL`, one oscillator poll. -/
  | tPoll
  deriving DecidableEq, Repr

/-- FREE VALUE (R80, D31): the bit the target presents for the k-th sample since the model's start. No body: a
statement about a sample holds for every answer of the target (log 2). -/
opaque Config.freeSample : Nat → Bit

/-- OPEN (R8, U19): the family byte the family check compares with (log 9). -/
opaque Config.expectedFamily : Byte

/-- What R8 and the decision it cites (D12) ask of the durations, `time` giving the length of each in milliseconds:
`T_HALF` above 0, the other OPEN ones not below 0, `T_POLL` one millisecond. The durations are arguments: no rule of the
block depends on one (R280), so the machine has none of them (log 8). -/
def Config.Timing (time : Delay → Real) : Prop :=
  0 < time .tHalf ∧ 0 ≤ time .tDir ∧ 0 ≤ time .tPre ∧ 0 ≤ time .tResetHold ∧ 0 ≤ time .tStartup ∧ time .tPoll = 1

/-- The three parameters of DebugEntrySequencer (R8, U19, U20). -/
structure Config.Sequencing where
  /-- `MAX_ATTEMPTS`, the first attempt included (R178). -/
  maxAttempts : Nat
  /-- `MAX_OSC_POLLS`, polls after the first status read (R189). -/
  maxOscPolls : Nat
  /-- `EXPECTED_FAMILY` (R186). -/
  expectedFamily : Byte
  deriving DecidableEq, Repr

/-- The parameters of the modelled block: the reference budgets 3 and 50 (R8; log 10) and the OPEN family. -/
def Config.sequencing : Config.Sequencing where
  maxAttempts := 3
  maxOscPolls := 50
  expectedFamily := Config.expectedFamily

end Sys2Proof
end

