-- ==== Sys2Proof/Machine/State.lean ====
section
/-! DEFINITION. The state of the block (10_state), its reset (R46, R260), and the reasons a step can stop. -/

namespace Sys2Proof.Machine

/-- Direction of the data line (10_state R22). -/
inductive Dir where
  /-- The block drives the line. -/
  | out
  /-- The block does not drive the line and may sample it. -/
  | inp
  deriving DecidableEq, Repr

/-- The link: "one explicit link-state value" (10_state R20 to R23). -/
structure Link where
  /-- `clk`, the level driven on the clock line (R21). -/
  clk : Bit
  /-- `data_dir` (R22). -/
  dataDir : Dir
  /-- `data_out`, the latch driven while the direction is OUT (R22). -/
  dataOut : Bit
  /-- `reset_n`, active low (R23). -/
  resetN : Bit
  deriving DecidableEq, Repr

/-- The link at reset of the block (R46). -/
def Link.reset : Link := { clk := false, dataDir := .inp, dataOut := false, resetN := true }

/-- An event of the wire trace (00_scope R12). -/
inductive Event where
  /-- `CLK(v)` -/
  | clk (v : Bit)
  /-- `DATA(v)` -/
  | data (v : Bit)
  /-- `DIR(d)` -/
  | dir (d : Dir)
  /-- `RST(v)` -/
  | rst (v : Bit)
  /-- `SAMPLE(b)` -/
  | sample (b : Bit)
  /-- `WAIT(T)` -/
  | wait (t : Delay)
  deriving DecidableEq, Repr

/-- `session` (10_state R25). -/
inductive Session where
  | closed
  | opened
  deriving DecidableEq, Repr

/-- The sequencer's `state` register (10_state R29), in the spec's order 0 to 6. -/
inductive SeqState where
  | idle
  | resetAsserted
  | twoClockEdges
  | resetReleased
  | settling
  | verified
  | failed
  deriving DecidableEq, Repr

/-- The `gate` register (10_state R35), in the spec's order 0 to 5. -/
inductive GateState where
  | gateIdle
  | gateLock
  | gateOsc
  | gateHalt
  | approved
  | gateFatal
  deriving DecidableEq, Repr

/-- The `error` register (10_state R33, 60_exceptions R231). Code 5 (ReadMismatch) is reserved and never held. -/
inductive ErrorCode where
  | none
  | linkAbsent
  | debugLocked
  | oscillatorUnstable
  | haltVerificationFailed
  deriving DecidableEq, Repr

/-- An operation a client invokes (30_encoding R103): the call-level operations, and one byte form for each of the
two encodings of the opcode table. -/
inductive Call where
  /-- `exchange(op, req)` (41_commandchannel R140). -/
  | exchange (op : Byte) (req : List Byte)
  /-- A remote-execution pseudo-operation, given by its payload bytes (43_boundary R210 to R216). -/
  | remote (payload : List Byte)
  /-- `set_dir(d)` (40_bitclock R120). -/
  | setDir (d : Dir)
  /-- `pulse_clock()` (R121). -/
  | pulseClock
  /-- `write_bit(v)` (R122). -/
  | writeBit (v : Bit)
  /-- `read_bit()` (R123). -/
  | readBit
  /-- `write_byte(x)` (R124). -/
  | writeByte (x : Byte)
  /-- `read_byte()` (R125). -/
  | readByte
  /-- `attach()` (42_debugentry R171). -/
  | attach
  /-- `gate()` (42_debugentry R185). -/
  | gate
  /-- Reset of the block (70_reset_and_hazards R260). -/
  | reset
  deriving DecidableEq, Repr

/-- What the last call handed back to its caller (R123, R125, R140). The model's own field (log 20). -/
inductive Returned where
  | nothing
  /-- `read_bit`. -/
  | bit (b : Bit)
  /-- `read_byte`. -/
  | byte (x : Byte)
  /-- `exchange`: `resp[0 .. nresp-1]`. -/
  | bytes (resp : List Byte)
  deriving DecidableEq, Repr

/-- Which of the registers that R46 leaves without a value hold one now (10_state R28, R47). The model's own marks
(log 5): `req` and `resp` count the entries of the last exchange, from index 0. -/
structure Held where
  req : Nat
  resp : Nat
  chipId : Bool
  status : Bool
  haltResp : Bool
  deriving DecidableEq, Repr

/-- Nothing held, as after reset (R46). -/
def Held.reset : Held := { req := 0, resp := 0, chipId := false, status := false, haltResp := false }

/-- The state. The block has no memory and no program counter (00_scope R11, 10_state R39). -/
structure State where
  /-- `session` (R25). -/
  session : Session
  /-- The link registers (R20 to R23). -/
  link : Link
  /-- `req[0]` (R28). -/
  req0 : Byte
  /-- `req[1]` (R28). -/
  req1 : Byte
  /-- `req[2]` (R28). -/
  req2 : Byte
  /-- `resp[0]` (R28). -/
  resp0 : Byte
  /-- `resp[1]` (R28). -/
  resp1 : Byte
  /-- `state` (R29). -/
  seq : SeqState
  /-- `attempts` (R30). -/
  attempts : BitVec 2
  /-- `chip_id` (R31). -/
  chipId : Half
  /-- `status` (R32). -/
  status : Byte
  /-- `error` (R33). -/
  error : ErrorCode
  /-- `warn_family` (R34). -/
  warnFamily : Bit
  /-- `gate` (R35). -/
  gate : GateState
  /-- `osc_polls` (R36). -/
  oscPolls : BitVec 6
  /-- `extract_ok` (R37). -/
  extractOk : Bit
  /-- `halt_resp` (R38). -/
  haltResp : Byte
  /-- `trace`, oldest event first (00_scope R12). -/
  trace : List Event
  /-- The model's own: which registers hold a value (log 5). -/
  held : Held
  /-- The model's own: the target's answers fixed in advance, by sample number (log 3). -/
  answers : List Bit
  /-- The model's own: how many samples have been taken (log 2). -/
  samples : Nat
  /-- The model's own: the client's invocations still to run, oldest first (log 1). -/
  calls : List Call
  /-- The model's own: what the last call handed back (log 20). -/
  returned : Returned
  deriving DecidableEq, Repr

/-- The block right after reset (10_state R46, 70_reset R260). DESIGN CHOICE: the zeros of the registers R46 leaves
without a value (log 4), and the model's own fields (log 1, 2, 3, 5, 20). -/
def State.reset : State where
  session := .opened
  link := Link.reset
  req0 := 0
  req1 := 0
  req2 := 0
  resp0 := 0
  resp1 := 0
  seq := .idle
  attempts := 0
  chipId := 0
  status := 0
  error := .none
  warnFamily := false
  gate := .gateIdle
  oscPolls := 0
  extractOk := false
  haltResp := 0
  trace := []
  held := Held.reset
  answers := []
  samples := 0
  calls := []
  returned := .nothing

/-- No step of the block ends in a fault: BitClock and CommandChannel never fail (R126, R143, R230), and a fatal end
of the sequencer is a next state with `error` written (R236). Hence no constructor (log 26). -/
inductive Fault where
  deriving DecidableEq, Repr

/-- Why a call is refused: R13 (c), no state change and no event. Each is safe: the model answers nothing where the
spec gives the call no meaning (log 6). -/
inductive Refusal where
  /-- No instruction of this model raises it: every arm of `exec` has its meaning. -/
  | notModelled (mnemonic : String)
  /-- Every call but reset while `session = Closed` (R25). Safe. -/
  | sessionClosed
  /-- `exchange` with an opcode that has no record (R100, R141 (a)). Safe. -/
  | noRecord
  /-- `exchange` with another number of request bytes than the record's (R141 (b)). Safe. -/
  | wrongRequestCount
  /-- A remote call whose bytes are none of the six payloads of R99 (log 18). Safe. -/
  | unknownPayload
  /-- A bit or byte operation with the wrong data direction (R122, R123, R270). Safe. -/
  | wrongDirection
  /-- An operation that requires `clk = 0` while it is 1 (R121 to R123); no run reaches this (R48, log 12). Safe. -/
  | clockHigh
  /-- `attach` outside Idle (R181). Safe. -/
  | attachNotIdle
  /-- `gate` outside Verified, GateIdle and no error (R194). Safe. -/
  | gateNotReady
  deriving DecidableEq, Repr

end Sys2Proof.Machine
end

