-- ==== Sys2Proof/Machine/Ops.lean ====
section
/-! DEFINITION. The six primitives (00_scope R11), the target's answers (20_memory R80), `raise Fatal` (60_exceptions
R236) with the only way out of it (R240, R260), and the preconditions every operation shares. -/

namespace Sys2Proof.Machine

/-- Appends one event to the trace (R12). -/
def emit (e : Event) (s : State) : State := { s with trace := s.trace ++ [e] }

/-- `DriveClk(v)` (R11). -/
def driveClk (v : Bit) (s : State) : State := emit (.clk v) { s with link := { s.link with clk := v } }

/-- `DriveData(v)` (R11). -/
def driveData (v : Bit) (s : State) : State := emit (.data v) { s with link := { s.link with dataOut := v } }

/-- `SetDirRaw(d)` (R11). -/
def setDirRaw (d : Dir) (s : State) : State := emit (.dir d) { s with link := { s.link with dataDir := d } }

/-- `DriveReset(v)` (R11). -/
def driveReset (v : Bit) (s : State) : State := emit (.rst v) { s with link := { s.link with resetN := v } }

/-- `Wait(T)` (R11, R77). -/
def wait (t : Delay) (s : State) : State := emit (.wait t) s

/-- The target's answer to sample number `k`: the environment's own where it has fixed one, else the free value
(R80; log 2, 3). -/
def answer (answers : List Bit) (k : Nat) : Bit := answers.getD k (Config.freeSample k)

/-- The bit the target will present for the `k`-th sample from now. -/
def State.upcoming (s : State) (k : Nat) : Bit := answer s.answers (s.samples + k)

/-- `Sample()` (R11): the target's answer; the event records it. -/
def sample (s : State) : Bit × State :=
  let b := s.upcoming 0
  (b, emit (.sample b) { s with samples := s.samples + 1 })

/-- `raise Fatal(code)` (R236): `error` is written, no pin is touched. The register is sticky: once it is not None it
keeps its value (R33, log 16). Ending the operation is the raiser's: nothing after the `raise` runs. -/
def raiseFatal (code : ErrorCode) (s : State) : State :=
  { s with error := if s.error = .none then code else s.error }

/-- Reset of the block (R260), the only way out of a fatal end (R240): every register at its reset value and the
trace empty. What is outside the block stays: the client's remaining calls and the target's answers (log 7). -/
def resetBlock (s : State) : State :=
  { State.reset with answers := s.answers, samples := s.samples, calls := s.calls }

/-- What a call hands back to its caller. -/
def returning (r : Returned) (s : State) : State := { s with returned := r }

/-- No operation is defined while the session is closed (R25). -/
def whenOpen (s : State) (k : Host.Outcome State Fault Refusal) : Host.Outcome State Fault Refusal :=
  if s.session = .opened then k else .refused .sessionClosed

/-- `require clk = 0` (R121 to R123), asked once at the start of a call (log 12). -/
def whenClockLow (s : State) (k : Host.Outcome State Fault Refusal) : Host.Outcome State Fault Refusal :=
  if s.link.clk then .refused .clockHigh else k

/-- The direction duty of the bit and byte operations (R270). -/
def whenDir (d : Dir) (s : State) (k : Host.Outcome State Fault Refusal) : Host.Outcome State Fault Refusal :=
  if s.link.dataDir = d then k else .refused .wrongDirection

end Sys2Proof.Machine
end

