-- ==== Sys2Proof/Machine/Operands.lean ====
section
/-! DEFINITION. Operand forms: bytes as bits, bit 7 first (20_memory R64, 40_bitclock R128), the request and response
buffers (10_state R28), and 16-bit values from two response bytes (20_memory R66). -/

namespace Sys2Proof.Machine

/-- `x[i] <- b` (00_scope R9, R125). -/
def setBit (x : Byte) (i : Nat) (b : Bit) : Byte :=
  if b then x ||| (1#8 <<< i) else x &&& ~~~(1#8 <<< i)

/-- The bits of a byte in wire order, bit 7 first (R64). -/
def bitsMsbFirst (x : Byte) : List Bit :=
  [x.getLsbD 7, x.getLsbD 6, x.getLsbD 5, x.getLsbD 4, x.getLsbD 3, x.getLsbD 2, x.getLsbD 1, x.getLsbD 0]

/-- The byte whose bits the target will present in samples `k` to `k + 7` from now, the first as bit 7 (R125):
`x = sum over j of b_j * 2^(7-j)` (R128). -/
def State.upcomingByte (s : State) (k : Nat) : Byte :=
  BitVec.ofNat 8
    ((s.upcoming k).toNat * 128 + (s.upcoming (k + 1)).toNat * 64 + (s.upcoming (k + 2)).toNat * 32 +
      (s.upcoming (k + 3)).toNat * 16 + (s.upcoming (k + 4)).toNat * 8 + (s.upcoming (k + 5)).toNat * 4 +
      (s.upcoming (k + 6)).toNat * 2 + (s.upcoming (k + 7)).toNat)

/-- A 16-bit value from two bytes, the first the high byte (R66). -/
def joinBytes (hi lo : Byte) : Half := hi ++ lo

/-- The caller hands `exchange` its request bytes: `req[0 .. n-1]` are written, the others kept (R28, log 21). -/
def loadReq (req : List Byte) (s : State) : State :=
  { s with req0 := req.getD 0 s.req0, req1 := req.getD 1 s.req1, req2 := req.getD 2 s.req2 }

/-- `req[0 .. n-1]`. -/
def State.reqBytes (s : State) (n : Nat) : List Byte := [s.req0, s.req1, s.req2].take n

/-- `resp[j] <- x`. -/
def setResp (j : Nat) (x : Byte) (s : State) : State :=
  { s with resp0 := if j = 0 then x else s.resp0, resp1 := if j = 1 then x else s.resp1 }

/-- `resp[0 .. n-1]`. -/
def State.respBytes (s : State) (n : Nat) : List Byte := [s.resp0, s.resp1].take n

/-- After an exchange the buffer entries beyond its counts have no meaning (R28). -/
def noteExchange (nreq nresp : Nat) (s : State) : State :=
  { s with held := { s.held with req := nreq, resp := nresp } }

end Sys2Proof.Machine
end

