-- ==== Sys2Proof/Machine/BitClock.lean ====
section
/-! DEFINITION. BitClock (40_bitclock): the helpers, the bit operations, the byte operations, and each as a client's
call with its precondition. -/

namespace Sys2Proof.Machine

/-- `set_dir(d)` (R120): nothing at all where the line already has that direction. -/
def setDir (d : Dir) (s : State) : State :=
  if s.link.dataDir = d then s else wait .tDir (setDirRaw d s)

/-- `pulse_clock()` (R121). -/
def pulseClock (s : State) : State := wait .tHalf (driveClk false (wait .tHalf (driveClk true s)))

/-- `write_bit(v)` (R122). -/
def writeBit (v : Bit) (s : State) : State := pulseClock (driveData v s)

/-- `read_bit()` (R123): the sample lies after the high half and before the falling edge. -/
def readBit (s : State) : Bit × State :=
  let sampled := sample (wait .tHalf (driveClk true s))
  (sampled.1, wait .tHalf (driveClk false sampled.2))

/-- The loop of `write_byte` over bits `n-1` down to 0 (R124). -/
def writeBits (x : Byte) : Nat → State → State
  | 0, s => s
  | i + 1, s => writeBits x i (writeBit (x.getLsbD i) s)

/-- `write_byte(x)` (R124). -/
def writeByte (x : Byte) (s : State) : State := writeBits x 8 s

/-- The loop of `read_byte` over bits `n-1` down to 0 (R125). -/
def readBits : Nat → Byte → State → Byte × State
  | 0, x, s => (x, s)
  | i + 1, x, s => readBits i (setBit x i (readBit s).1) (readBit s).2

/-- `read_byte()` (R125). -/
def readByte (s : State) : Byte × State := readBits 8 0 (wait .tPre s)

/-! ### As calls of a client -/

/-- A client's `set_dir(d)`: never refused inside a session (R120). -/
def callSetDir (d : Dir) (s : State) : Host.Outcome State Fault Refusal :=
  whenOpen s (.next (returning .nothing (setDir d s)))

/-- A client's `pulse_clock()` (R121). -/
def callPulseClock (s : State) : Host.Outcome State Fault Refusal :=
  whenOpen s (whenClockLow s (.next (returning .nothing (pulseClock s))))

/-- A client's `write_bit(v)` (R122, R270). -/
def callWriteBit (v : Bit) (s : State) : Host.Outcome State Fault Refusal :=
  whenOpen s (whenDir .out s (whenClockLow s (.next (returning .nothing (writeBit v s)))))

/-- A client's `read_bit()` (R123, R270). -/
def callReadBit (s : State) : Host.Outcome State Fault Refusal :=
  whenOpen s (whenDir .inp s (whenClockLow s (.next (returning (.bit (readBit s).1) (readBit s).2))))

/-- A client's `write_byte(x)` (R124, R270). -/
def callWriteByte (x : Byte) (s : State) : Host.Outcome State Fault Refusal :=
  whenOpen s (whenDir .out s (whenClockLow s (.next (returning .nothing (writeByte x s)))))

/-- A client's `read_byte()` (R125, R270). -/
def callReadByte (s : State) : Host.Outcome State Fault Refusal :=
  whenOpen s (whenDir .inp s (whenClockLow s (.next (returning (.byte (readByte s).1) (readByte s).2))))

end Sys2Proof.Machine
end

