-- ==== Sys2Proof/Machine/CommandChannel.lean ====
section
/-! DEFINITION. CommandChannel (41_commandchannel): the exchange, its refusals, and the meaning of each of the eleven
commands. A command writes `req[]`, `resp[]` and the link registers and nothing else of the block (R28, R140); the
sequencer's registers are written by the sequencer only (R40, log 13). -/

namespace Sys2Proof.Machine

/-- The opcode byte and `req[0 .. nreq-1]`, in that order (R65, R140). -/
def sendFrame (r : CmdRecord) (s : State) : State :=
  (s.reqBytes r.nreq.val).foldl (fun t b => writeByte b t) (writeByte r.opcode (setDir .out s))

/-- The turn-around, where the record has a response (R140, 90_conflicts C4). -/
def turnAround (r : CmdRecord) (s : State) : State := if 0 < r.nresp.val then setDir .inp s else s

/-- `for j: resp[j] <- read_byte()` (R140): `n` bytes from index `j` on. -/
def readResponses : Nat → Nat → State → State
  | 0, _, s => s
  | n + 1, j, s => readResponses n (j + 1) (setResp j (readByte s).1 (readByte s).2)

/-- `exchange` for a record, the request bytes standing in `req[]` (R140). -/
def exchange (r : CmdRecord) (s : State) : State :=
  noteExchange r.nreq.val r.nresp.val (readResponses r.nresp.val 0 (turnAround r (sendFrame r s)))

/-- `exchange(op, req)` as a client's call (R140, R141): refused without a record or with another number of request
bytes; else performed, and `resp[0 .. nresp-1]` handed back. It does not ask for Verified (R264, log 15). -/
def xchg (op : Byte) (req : List Byte) (s : State) : Host.Outcome State Fault Refusal :=
  whenOpen s
    (match cmdLookup op with
    | none => .refused .noRecord
    | some r =>
      if req.length = r.nreq.val then
        whenClockLow s
          (.next
            (returning (.bytes ((exchange r (loadReq req s)).respBytes r.nresp.val)) (exchange r (loadReq req s))))
      else .refused .wrongRequestCount)

/-- CHIP_ERASE (R161): to CommandChannel an exchange like any other (D15; log 14). -/
def execChipErase (s : State) : Host.Outcome State Fault Refusal := xchg 0x14 [] s

/-- WR_CONFIG (R158). -/
def execWrConfig (config : Byte) (s : State) : Host.Outcome State Fault Refusal := xchg 0x1D [config] s

/-- RD_CONFIG (R159). -/
def execRdConfig (s : State) : Host.Outcome State Fault Refusal := xchg 0x24 [] s

/-- GET_PC (R160). -/
def execGetPc (s : State) : Host.Outcome State Fault Refusal := xchg 0x28 [] s

/-- READ_STATUS (R150): `status` is not written, the sequencer's own reads do that. -/
def execReadStatus (s : State) : Host.Outcome State Fault Refusal := xchg 0x34 [] s

/-- HALT (R152). -/
def execHalt (s : State) : Host.Outcome State Fault Refusal := xchg 0x44 [] s

/-- RESUME (R153). -/
def execResume (s : State) : Host.Outcome State Fault Refusal := xchg 0x4C [] s

/-- DEBUG_INSTR_1 (R155). -/
def execDebugInstr1 (b0 : Byte) (s : State) : Host.Outcome State Fault Refusal := xchg 0x55 [b0] s

/-- DEBUG_INSTR_2 (R156). -/
def execDebugInstr2 (b0 b1 : Byte) (s : State) : Host.Outcome State Fault Refusal := xchg 0x56 [b0, b1] s

/-- DEBUG_INSTR_3 (R157). -/
def execDebugInstr3 (b0 b1 b2 : Byte) (s : State) : Host.Outcome State Fault Refusal := xchg 0x57 [b0, b1, b2] s

/-- GET_CHIP_ID (R151): `chip_id` is not written, the sequencer's own reads do that. -/
def execGetChipId (s : State) : Host.Outcome State Fault Refusal := xchg 0x68 [] s

/-- The 16-bit value of a two-byte response, `resp[0]` high (R66, R98). -/
def State.respHalf (s : State) : Half := joinBytes s.resp0 s.resp1

end Sys2Proof.Machine
end

