-- ==== Sys2Proof/Machine/Flags.lean ====
section
/-! DEFINITION. The status byte's fields (30_encoding R96), the identity's fields and validity (R97), the family
comparison (42_debugentry R186), and the numeric codes of the enumerated registers (10_state R29, R33, R35). -/

namespace Sys2Proof.Machine

/-! ### Status byte (R96) -/

/-- Bit 7, mask 0x80. -/
def chipEraseDone (st : Byte) : Bit := st.getLsbD 7
/-- Bit 6, mask 0x40. -/
def pconIdle (st : Byte) : Bit := st.getLsbD 6
/-- Bit 5, mask 0x20. -/
def cpuHalted (st : Byte) : Bit := st.getLsbD 5
/-- Bit 4, mask 0x10. -/
def pmActive (st : Byte) : Bit := st.getLsbD 4
/-- Bit 3, mask 0x08. -/
def haltStatus (st : Byte) : Bit := st.getLsbD 3
/-- Bit 2, mask 0x04. -/
def debugLocked (st : Byte) : Bit := st.getLsbD 2
/-- Bit 1, mask 0x02. -/
def oscillatorStable (st : Byte) : Bit := st.getLsbD 1
/-- Bit 0, mask 0x01. -/
def stackOverflow (st : Byte) : Bit := st.getLsbD 0

/-- The eight fields of a status byte, high to low (R32, R96). -/
structure StatusFields where
  chipEraseDone : Bit
  pconIdle : Bit
  cpuHalted : Bit
  pmActive : Bit
  haltStatus : Bit
  debugLocked : Bit
  oscillatorStable : Bit
  stackOverflow : Bit
  deriving DecidableEq, Repr

/-- Decodes a status byte; every one of the 256 values decodes (R96). -/
def decodeStatus (st : Byte) : StatusFields where
  chipEraseDone := chipEraseDone st
  pconIdle := pconIdle st
  cpuHalted := cpuHalted st
  pmActive := pmActive st
  haltStatus := haltStatus st
  debugLocked := debugLocked st
  oscillatorStable := oscillatorStable st
  stackOverflow := stackOverflow st

/-! ### Chip identity (R31, R97) -/

/-- `chip_id[15:8]`. -/
def family (id : Half) : Byte := id.extractLsb' 8 8
/-- `chip_id[7:0]`. -/
def revision (id : Half) : Byte := id.extractLsb' 0 8

/-- Neither 0x0000 nor 0xFFFF: a real identity (R97, R177). -/
def identityValid (id : Half) : Bool := id != 0x0000#16 && id != 0xFFFF#16

/-- The family byte differs from the expected one (R186). -/
def familyMismatch (expected : Byte) (id : Half) : Bool := family id != expected

/-! ### Numeric codes -/

/-- `state` as three bits (R29). -/
def seqCode : SeqState → BitVec 3
  | .idle => 0
  | .resetAsserted => 1
  | .twoClockEdges => 2
  | .resetReleased => 3
  | .settling => 4
  | .verified => 5
  | .failed => 6

/-- `gate` as three bits (R35). -/
def gateCode : GateState → BitVec 3
  | .gateIdle => 0
  | .gateLock => 1
  | .gateOsc => 2
  | .gateHalt => 3
  | .approved => 4
  | .gateFatal => 5

/-- `error` as three bits (R33, R231); 5 is reserved for ReadMismatch, 6 and 7 are unused. -/
def errorCode : ErrorCode → BitVec 3
  | .none => 0
  | .linkAbsent => 1
  | .debugLocked => 2
  | .oscillatorUnstable => 3
  | .haltVerificationFailed => 4

/-! ### Registers that may hold no value (R47) -/

/-- `chip_id` where it holds a value. -/
def State.chipIdReading (s : State) : Option Half := if s.held.chipId then some s.chipId else none

/-- `status` where it holds a value. -/
def State.statusReading (s : State) : Option Byte := if s.held.status then some s.status else none

/-- `halt_resp` where it holds a value. -/
def State.haltRespReading (s : State) : Option Byte := if s.held.haltResp then some s.haltResp else none

end Sys2Proof.Machine
end

