-- ==== Sys2Proof/Machine/DebugEntry.lean ====
section
/-! DEFINITION. DebugEntrySequencer (42_debugentry): `attach` with its state machine, `gate` with its checks, each as
a client's call with its precondition. -/

namespace Sys2Proof.Machine

/-! ### The sequencer's own registers -/

/-- `state <- q` (10_state R29). -/
def setSeq (q : SeqState) (s : State) : State := { s with seq := q }

/-- `attempts <- attempts + 1` (R172). -/
def countAttempt (s : State) : State := { s with attempts := s.attempts + 1 }

/-- `gate <- g` (10_state R35). -/
def setGate (g : GateState) (s : State) : State := { s with gate := g }

/-- `osc_polls <- n` (R189). -/
def setPolls (n : BitVec 6) (s : State) : State := { s with oscPolls := n }

/-- `extract_ok <- 1` (R192). -/
def grantExtraction (s : State) : State := { s with extractOk := true }

/-! ### attach -/

/-- To ResetAsserted (R172): count the attempt, assert reset, hold. -/
def assertReset (s : State) : State :=
  wait .tResetHold (driveReset false (setSeq .resetAsserted (countAttempt s)))

/-- To TwoClockEdges (R173): exactly two pulses, one indivisible piece of the step (R180; log 11). -/
def twoClockEdges (s : State) : State := pulseClock (pulseClock (setSeq .twoClockEdges s))

/-- To ResetReleased (R174). -/
def releaseReset (s : State) : State := driveReset true (setSeq .resetReleased s)

/-- To Settling (R175). -/
def settle (s : State) : State := wait .tStartup (setSeq .settling s)

/-- `chip_id <- {resp[0], resp[1]}` (R97, R176). -/
def latchIdentity (s : State) : State :=
  { s with chipId := s.respHalf, held := { s.held with chipId := true } }

/-- The identity read (R176): one GET_CHIP_ID. -/
def readIdentity (s : State) : State := latchIdentity (exchange Cmd.getChipId s)

/-- One attempt up to the identity check (R171). -/
def attempt (s : State) : State := readIdentity (settle (releaseReset (twoClockEdges (assertReset s))))

/-- The loop of `attach` (R171, R177 to R179). The fuel bounds the passes: the loop ends when `attempts` reads
`MAX_ATTEMPTS`, at the latest after a full turn of the two-bit counter (log 17). -/
def attachLoop (p : Config.Sequencing) : Nat → State → State
  | 0, s => s
  | n + 1, s =>
    let tried := attempt s
    if identityValid tried.chipId then setSeq .verified tried
    else if tried.attempts.toNat = p.maxAttempts then raiseFatal .linkAbsent (setSeq .failed tried)
    else attachLoop p n (setSeq .failed tried)

/-- `attach()` once its precondition holds (R171). -/
def attach (p : Config.Sequencing) (s : State) : State := attachLoop p (2 ^ 2) s

/-- A client's `attach()` (R181). -/
def callAttach (p : Config.Sequencing) (s : State) : Host.Outcome State Fault Refusal :=
  whenOpen s
    (if s.seq = .idle then whenClockLow s (.next (returning .nothing (attach p s)))
    else .refused .attachNotIdle)

/-! ### gate -/

/-- Where a piece of `gate` leaves the operation: going on, or ended fatal (R13 (b), R236). -/
inductive Flow where
  | goOn (s : State)
  | ended (s : State)
  deriving DecidableEq, Repr

/-- Runs the rest of the operation unless it has ended. -/
def Flow.andThen (f : Flow) (k : State → Flow) : Flow :=
  match f with
  | .goOn s => k s
  | .ended s => .ended s

/-- The state the operation ends in. -/
def Flow.state : Flow → State
  | .goOn s => s
  | .ended s => s

/-- `gate <- GateFatal; raise Fatal(code)` (R185, R236). -/
def failGate (code : ErrorCode) (s : State) : Flow := .ended (raiseFatal code (setGate .gateFatal s))

/-- The family check: warns only (R186). -/
def checkFamily (expected : Byte) (s : State) : State :=
  { s with warnFamily := s.warnFamily || familyMismatch expected s.chipId }

/-- `status <- resp[0]` (R188). -/
def latchStatus (s : State) : State := { s with status := s.resp0, held := { s.held with status := true } }

/-- `read_status_checked()`: one READ_STATUS, and the lock tested on the byte (R188). -/
def readStatusChecked (s : State) : Flow :=
  let read := latchStatus (exchange Cmd.readStatus s)
  if debugLocked read.status then failGate .debugLocked read else .goOn read

/-- One poll: the wait, the count and the read (R189). -/
def pollOnce (s : State) : Flow := readStatusChecked (setPolls (s.oscPolls + 1) (wait .tPoll s))

/-- The oscillator loop with `n` polls left, `n = MAX_OSC_POLLS - osc_polls` (R189). -/
def pollOscillator : Nat → State → Flow
  | 0, s => if oscillatorStable s.status then .goOn s else failGate .oscillatorUnstable s
  | n + 1, s => if oscillatorStable s.status then .goOn s else (pollOnce s).andThen (pollOscillator n)

/-- `halt_resp <- r[0]` (R190). -/
def latchHalt (s : State) : State := { s with haltResp := s.resp0, held := { s.held with haltResp := true } }

/-- HALT, issued once and always (R190). -/
def issueHalt (s : State) : State := latchHalt (exchange Cmd.halt (setGate .gateHalt s))

/-- The halt check and the approval (R191, R192). -/
def approve (s : State) : Flow :=
  if cpuHalted s.status then .goOn (grantExtraction (setGate .approved s))
  else failGate .haltVerificationFailed s

/-- `gate()` once its precondition holds (R185): family, lock, oscillator, halt. -/
def gateChecks (p : Config.Sequencing) (s : State) : Flow :=
  (readStatusChecked (setGate .gateLock (checkFamily p.expectedFamily s))).andThen fun locked =>
    (pollOscillator p.maxOscPolls (setPolls 0 (setGate .gateOsc locked))).andThen fun stable =>
      (readStatusChecked (issueHalt stable)).andThen approve

/-- A client's `gate()` (R194). -/
def callGate (p : Config.Sequencing) (s : State) : Host.Outcome State Fault Refusal :=
  whenOpen s
    (if s.seq = .verified ∧ s.gate = .gateIdle ∧ s.error = .none then
      whenClockLow s (.next (returning .nothing (gateChecks p s).state))
    else .refused .gateNotReady)

end Sys2Proof.Machine
end

