-- ==== Sys2Proof/Machine/RemoteExecution.lean ====
section
/-! DEFINITION. The remote-execution pseudo-operations (43_boundary): each expands into exactly one exchange of the
DEBUG_INSTR command that carries its bytes (R210, 30_encoding R94). To the block the bytes are request bytes: the use
constraints of R213 and R277 are the client's and are not checked (log 22). -/

namespace Sys2Proof.Machine

/-- `set_pointer(addr16)`: `XCHG DEBUG_INSTR_3 90 hi lo` (R211). -/
def execSetPointer (addr : Half) (s : State) : Host.Outcome State Fault Refusal :=
  xchg 0x57 [0x90, hiByte addr, loByte addr] s

/-- `clear_accumulator()`: `XCHG DEBUG_INSTR_1 E4` (R212). -/
def execClearAccumulator (s : State) : Host.Outcome State Fault Refusal := xchg 0x55 [0xE4] s

/-- load-accumulator-immediate: `XCHG DEBUG_INSTR_2 74 imm` (R216). -/
def execLoadAccumulatorImmediate (imm : Byte) (s : State) : Host.Outcome State Fault Refusal :=
  xchg 0x56 [0x74, imm] s

/-- `read_code_byte()`: `XCHG DEBUG_INSTR_1 93`; the result is `resp[0]` (R213). -/
def execReadCodeByte (s : State) : Host.Outcome State Fault Refusal := xchg 0x55 [0x93] s

/-- `increment_pointer()`: `XCHG DEBUG_INSTR_1 A3` (R214). -/
def execIncrementPointer (s : State) : Host.Outcome State Fault Refusal := xchg 0x55 [0xA3] s

/-- `write_special_register(addr8, value8)`: `XCHG DEBUG_INSTR_3 75 addr imm` (R215). -/
def execWriteSpecialRegister (addr imm : Byte) (s : State) : Host.Outcome State Fault Refusal :=
  xchg 0x57 [0x75, addr, imm] s

/-! ### The extractor's use of them (R218, information) -/

/-- For each offset of a block but the last: clear, read, increment; for the last: clear, read (R218). -/
def readOffsets : Nat → List Instr
  | 0 => []
  | 1 => [.clearAccumulator, .readCodeByte]
  | n + 2 => .clearAccumulator :: .readCodeByte :: .incrementPointer :: readOffsets (n + 1)

/-- The pseudo-operations that read a block of `size` bytes from `start` on (R218). -/
def blockRead (start : Half) (size : Nat) : List Instr := .setPointer start :: readOffsets size

/-- Boundary data (20_memory R74): base, size, extraction block and hex chunk of the target's flash. -/
def flashBase : Half := 0x0000
@[inherit_doc flashBase]
def flashSize : Nat := 32768
@[inherit_doc flashBase]
def blockSize : Nat := 64
@[inherit_doc flashBase]
def hexChunk : Nat := 16

end Sys2Proof.Machine
end

