-- ==== Sys2Proof/Machine/Dispatch.lean ====
section
/-! DEFINITION. One arm per instruction, each one call of its meaning. -/

namespace Sys2Proof.Machine

def exec (i : Instr) (s : State) : Host.Outcome State Fault Refusal :=
  match i with
  | .chipErase => Sys2Proof.Machine.execChipErase s
  | .wrConfig c => Sys2Proof.Machine.execWrConfig c s
  | .rdConfig => Sys2Proof.Machine.execRdConfig s
  | .getPc => Sys2Proof.Machine.execGetPc s
  | .readStatus => Sys2Proof.Machine.execReadStatus s
  | .halt => Sys2Proof.Machine.execHalt s
  | .resume => Sys2Proof.Machine.execResume s
  | .debugInstr1 b0 => Sys2Proof.Machine.execDebugInstr1 b0 s
  | .debugInstr2 b0 b1 => Sys2Proof.Machine.execDebugInstr2 b0 b1 s
  | .debugInstr3 b0 b1 b2 => Sys2Proof.Machine.execDebugInstr3 b0 b1 b2 s
  | .getChipId => Sys2Proof.Machine.execGetChipId s
  | .setPointer addr => Sys2Proof.Machine.execSetPointer addr s
  | .clearAccumulator => Sys2Proof.Machine.execClearAccumulator s
  | .loadAccumulatorImmediate imm => Sys2Proof.Machine.execLoadAccumulatorImmediate imm s
  | .readCodeByte => Sys2Proof.Machine.execReadCodeByte s
  | .incrementPointer => Sys2Proof.Machine.execIncrementPointer s
  | .writeSpecialRegister addr imm => Sys2Proof.Machine.execWriteSpecialRegister addr imm s

end Sys2Proof.Machine
end

