-- ==== Sys2Proof/Machine/Invoke.lean ====
section
/-! DEFINITION. What one invocation of the client does (00_scope R7, R13): the byte forms are decoded and dispatched,
the call-level operations run. -/

namespace Sys2Proof.Machine

/-- The refusal a byte form that is no encoding ends in (R100, R141). -/
def refusalOf (sp : Space) (e : Reject) : Refusal :=
  match sp, e with
  | .frame, .unknownOpcode => .noRecord
  | .frame, _ => .wrongRequestCount
  | .payload, _ => .unknownPayload

/-- A byte form of the opcode table: decoded whole, then executed. -/
def runBytes (sp : Space) (bytes : List Byte) (s : State) : Host.Outcome State Fault Refusal :=
  match decodeWhole sp bytes with
  | .ok i => exec i s
  | .error e => .refused (refusalOf sp e)

/-- Reset of the block as a client's call (R260, R240). -/
def callReset (s : State) : Host.Outcome State Fault Refusal := .next (resetBlock s)

/-- One invocation, run to its end (R15, R71, D1). -/
def runCall (c : Call) (s : State) : Host.Outcome State Fault Refusal :=
  match c with
  | .exchange op req => runBytes .frame (op :: req) s
  | .remote payload => runBytes .payload payload s
  | .setDir d => callSetDir d s
  | .pulseClock => callPulseClock s
  | .writeBit v => callWriteBit v s
  | .readBit => callReadBit s
  | .writeByte x => callWriteByte x s
  | .readByte => callReadByte s
  | .attach => callAttach Config.sequencing s
  | .gate => callGate Config.sequencing s
  | .reset => callReset s

/-- The oldest invocation is taken off the list and run; with none pending the block does nothing (R261). -/
def takeCall (s : State) : Host.Outcome State Fault Refusal :=
  match s.calls with
  | [] => .next s
  | c :: rest => runCall c { s with calls := rest }

/-- The invocation a table word stands for: the bytes of its row, as the client's call of that space (log 18). -/
def callOfBytes (bytes : List Byte) : Call :=
  match bytes with
  | [] => .remote []
  | b :: rest =>
    match tableSpace b with
    | .frame => .exchange b (rest.take (encodingLength b - 1))
    | .payload => .remote (b :: rest.take (encodingLength b - 1))

/-- The invocation that runs an instruction. -/
def callOf (i : Instr) : Call := callOfBytes (encode i)

end Sys2Proof.Machine
end

