-- ==== Sys2Proof/Machine/Step.lean ====
section
/-! DEFINITION. One step of the machine, and an instruction placed where the step takes its next one. -/

namespace Sys2Proof.Machine

/-- One step: one invocation of the client, run to its end (D1, R71). -/
def step (s : State) : Host.Outcome State Fault Refusal := takeCall s

/-- The table word as the client's next invocation (log 1, 18). -/
def State.withFetchWord (s : State) (nbits w : Nat) : State :=
  { s with calls := callOfBytes (tableBytes nbits w) :: s.calls }

end Sys2Proof.Machine
end

