-- ==== Sys2Proof/Machine/Wire.lean ====
section
/-! DEFINITION. The wire as it is seen from outside: the levels a trace leads to, the bits the target latches and the
bits it presented, which events may follow which levels, the edges inside a reset window, least durations, and the
shapes the spec draws of each operation's events (40_bitclock, R142, R184, the trace abbreviations of
95_test_vectors). The machine never uses these: statements do. -/

namespace Sys2Proof.Machine

/-! ### Levels -/

/-- The levels after one event (00_scope R11). -/
def Link.after (l : Link) : Event → Link
  | .clk v => { l with clk := v }
  | .data v => { l with dataOut := v }
  | .dir d => { l with dataDir := d }
  | .rst v => { l with resetN := v }
  | .sample _ => l
  | .wait _ => l

/-- The levels after a sequence of events. -/
def Link.replay (l : Link) (evs : List Event) : Link := evs.foldl Link.after l

/-- The level on the data line while the block drives it (10_state R22); undriven, it is the target's. -/
def Link.wireData (l : Link) : Option Bit := if l.dataDir = .out then some l.dataOut else none

/-! ### What the target sees -/

/-- The bit the target takes at an event: at a falling edge, the driven level (20_memory R61, R81). -/
def Link.latches (l : Link) : Event → List Bit
  | .clk false => if l.clk then l.wireData.toList else []
  | _ => []

/-- The bits the target takes over a sequence of events, first to last (R81; log 25). -/
def latched (l : Link) : List Event → List Bit
  | [] => []
  | e :: es => l.latches e ++ latched (l.after e) es

/-- The bits the block sampled over a sequence of events, first to last. -/
def sampled (evs : List Event) : List Bit :=
  evs.filterMap fun e => match e with
    | .sample b => some b
    | _ => none

/-- The number of rising clock edges (R127). -/
def risingEdges (evs : List Event) : Nat := evs.count (.clk true)

/-- An event with the sampled bit forgotten: what the block itself did (R75). -/
def Event.driven : Event → Event
  | .sample _ => .sample false
  | e => e

/-! ### Which events may follow which levels -/

/-- The clock alternates; data, direction and reset change only while the clock is low, data only while the line is
driven; a sample is taken only while the line is not driven and the clock is high (R61 to R63, R76, R273). -/
def Link.allows (l : Link) : Event → Bool
  | .clk v => l.clk != v
  | .data _ => l.dataDir == .out && !l.clk
  | .dir d => l.dataDir != d && !l.clk
  | .rst v => l.resetN != v && !l.clk
  | .sample _ => l.dataDir == .inp && l.clk
  | .wait _ => true

/-- Every event of the sequence is allowed where it stands. -/
def orderly (l : Link) : List Event → Bool
  | [] => true
  | e :: es => l.allows e && orderly (l.after e) es

/-! ### Reset windows (R173, R182, R273) -/

/-- Inside a window (`some n`): `n` rising edges so far. Outside: `none`. -/
def windowAfter (w : Option Nat) : Event → Option Nat
  | .rst false => some 0
  | .rst true => none
  | .clk true => w.map (· + 1)
  | _ => w

/-- The number of rising edges in each reset window that has been closed by `RST(1)`. -/
def windowEdges (w : Option Nat) : List Event → List Nat
  | [] => []
  | e :: es =>
    (match e, w with
      | .rst true, some n => [n]
      | _, _ => []) ++ windowEdges (windowAfter w e) es

/-- The target enters debug mode in a window of exactly two rising edges (assumption R82). -/
def entersDebugMode (edges : Nat) : Bool := edges == 2

/-! ### Time -/

/-- The least time a sequence of events takes, `time` giving the length of each wait (R77, R280; log 8). -/
def leastDuration (time : Delay → Real) (evs : List Event) : Real :=
  (evs.map fun e => match e with
    | .wait t => time t
    | _ => 0).sum

/-! ### Shapes -/

/-- `set_dir(d)` from direction `was` (R120). -/
def dirShape (was d : Dir) : List Event := if was = d then [] else [.dir d, .wait .tDir]

/-- `pulse_clock()` (R121). -/
def pulseShape : List Event := [.clk true, .wait .tHalf, .clk false, .wait .tHalf]

/-- `write_bit(v)` (R122). -/
def writeBitShape (v : Bit) : List Event := [.data v, .clk true, .wait .tHalf, .clk false, .wait .tHalf]

/-- `read_bit()` that returns `b` (R123). -/
def readBitShape (b : Bit) : List Event := [.clk true, .wait .tHalf, .sample b, .clk false, .wait .tHalf]

/-- `W(xx)` (R124). -/
def writeByteShape (x : Byte) : List Event := (bitsMsbFirst x).flatMap writeBitShape

/-- `R->xx` (R125). -/
def readByteShape (x : Byte) : List Event := .wait .tPre :: (bitsMsbFirst x).flatMap readBitShape

/-- A whole exchange from direction `was`: the sent bytes, the turn-around, the response bytes (R142). -/
def exchangeShape (was : Dir) (sent resp : List Byte) : List Event :=
  dirShape was .out ++ sent.flatMap writeByteShape ++ ([.dir .inp, .wait .tDir] ++ resp.flatMap readByteShape)

/-- The events of one attempt before its GET_CHIP_ID (R184). -/
def entryShape : List Event :=
  [.rst false, .wait .tResetHold] ++ pulseShape ++ pulseShape ++ [.rst true, .wait .tStartup]

/-- One attempt that reads these two bytes (R184). -/
def attemptShape (was : Dir) (hi lo : Byte) : List Event := entryShape ++ exchangeShape was [0x68] [hi, lo]

/-- The READ_STATUS exchange of the sequencer that reads `st` (95_test_vectors V8). -/
def statusShape (was : Dir) (st : Byte) : List Event := exchangeShape was [0x34] [st]

/-- One oscillator poll that reads `st` (R189). -/
def pollShape (st : Byte) : List Event := .wait .tPoll :: statusShape .inp st

/-- The HALT exchange of the sequencer that reads `r` (R190). -/
def haltShape (r : Byte) : List Event := exchangeShape .inp [0x44] [r]

/-- The state after the wire has moved and nothing else: new levels, these events, this many samples taken. -/
def State.onWire (s : State) (l : Link) (evs : List Event) (n : Nat) : State :=
  { s with link := l, trace := s.trace ++ evs, samples := s.samples + n }

/-- The next `n` bytes the target will present. -/
def State.upcomingBytes (s : State) (n : Nat) : List Byte := (List.range n).map fun j => s.upcomingByte (8 * j)

/-- The state after one exchange of record `r` whose request bytes stand in `req[]`, in closed form (R140, R142): the
line left IN with the last sent bit in the latch, the events of the exchange, `resp[0 .. nresp-1]` as presented. -/
def State.exchanged (s : State) (r : CmdRecord) : State :=
  let sent := r.opcode :: s.reqBytes r.nreq.val
  { s.onWire { s.link with dataDir := .inp, dataOut := (sent.getLastD 0).getLsbD 0, clk := false }
      (exchangeShape s.link.dataDir sent (s.upcomingBytes r.nresp.val)) (8 * r.nresp.val) with
    resp0 := if 0 < r.nresp.val then s.upcomingByte 0 else s.resp0
    resp1 := if 1 < r.nresp.val then s.upcomingByte 8 else s.resp1
    held := { s.held with req := r.nreq.val, resp := r.nresp.val } }

/-- The state after a client's exchange of record `r` with these request bytes (R140). -/
def State.commanded (s : State) (r : CmdRecord) (req : List Byte) : State :=
  { (loadReq req s).exchanged r with returned := .bytes (s.upcomingBytes r.nresp.val) }

/-- The state after `n` sequencer exchanges of no request and one response byte each, the trace longer by `evs`: the
line IN, a 0 in the latch (bit 0 of 0x34 and of 0x44), the last byte in `resp[0]` (42_debugentry R185 to R191). -/
def State.afterReads (s : State) (evs : List Event) (n : Nat) : State :=
  { s.onWire { s.link with dataDir := .inp, dataOut := false, clk := false } evs (8 * n) with
    resp0 := s.upcomingByte (8 * (n - 1))
    held := { s.held with req := 0, resp := 1, status := true }
    returned := .nothing }

/-- The state after one status read of the sequencer, the byte latched and not yet tested (R188). -/
def State.statusRead (s : State) : State :=
  { s.onWire { s.link with dataDir := .inp, dataOut := false, clk := false }
      (statusShape s.link.dataDir (s.upcomingByte 0)) 8 with
    resp0 := s.upcomingByte 0
    status := s.upcomingByte 0
    held := { s.held with req := 0, resp := 1, status := true } }

/-- The state after the sequencer's HALT, the byte latched (R190). -/
def State.haltSent (s : State) : State :=
  { s.onWire { s.link with dataDir := .inp, dataOut := false, clk := false }
      (exchangeShape s.link.dataDir [0x44] [s.upcomingByte 0]) 8 with
    resp0 := s.upcomingByte 0
    haltResp := s.upcomingByte 0
    gate := .gateHalt
    held := { s.held with req := 0, resp := 1, haltResp := true } }

/-- The identity attempt number `j + 1` from here would read: two bytes, high byte first (R66, R183). -/
def State.upcomingId (s : State) (j : Nat) : Half :=
  joinBytes (s.upcomingByte (16 * j)) (s.upcomingByte (16 * j + 8))

/-- The events of `k` attempts back to back; only the first can find the line OUT (R184). -/
def State.attemptsShape (s : State) (k : Nat) : List Event :=
  (List.range k).flatMap fun j =>
    attemptShape (if j = 0 then s.link.dataDir else .inp) (s.upcomingByte (16 * j)) (s.upcomingByte (16 * j + 8))

/-- The state after `k` attempts, `1 <= k`, before the outcome is written: pins at rest, the last identity read
(R171, R184). -/
def State.afterAttempts (s : State) (k : Nat) : State :=
  { s.onWire { clk := false, dataDir := .inp, dataOut := false, resetN := true } (s.attemptsShape k) (16 * k) with
    attempts := s.attempts + BitVec.ofNat 2 k
    chipId := s.upcomingId (k - 1)
    resp0 := s.upcomingByte (16 * (k - 1))
    resp1 := s.upcomingByte (16 * (k - 1) + 8)
    held := { s.held with req := 0, resp := 2, chipId := true }
    returned := .nothing }

/-- The status reads of the gating from here, byte by byte: byte `j` is free of the lock and shows the oscillator
unstable (R188, R189). -/
def State.stillUnstable (s : State) (j : Nat) : Prop :=
  debugLocked (s.upcomingByte (8 * j)) = false ∧ oscillatorStable (s.upcomingByte (8 * j)) = false

/-- The oscillator check passes after exactly `k` polls: the first `k` bytes unlocked and unstable, byte `k` unlocked
and stable (R189). -/
def State.stableAfter (s : State) (k : Nat) : Prop :=
  (∀ j, j < k → s.stillUnstable j) ∧ debugLocked (s.upcomingByte (8 * k)) = false ∧
    oscillatorStable (s.upcomingByte (8 * k)) = true

/-- The events of the gating up to and including `k` polls (R187, R189). -/
def State.pollsShape (s : State) (k : Nat) : List Event :=
  statusShape s.link.dataDir (s.upcomingByte 0) ++
    (List.range k).flatMap fun j => pollShape (s.upcomingByte (8 * (j + 1)))

/-- The events of a gating that reaches the read after HALT with `k` polls (R190, R191). -/
def State.haltedShape (s : State) (k : Nat) : List Event :=
  s.pollsShape k ++ (haltShape (s.upcomingByte (8 * (k + 1))) ++ statusShape .inp (s.upcomingByte (8 * (k + 2))))

/-- Where the gating stands after `k` polls, the last byte read not yet examined for the oscillator (R187, R189). -/
def State.polled (expected : Byte) (s : State) (k : Nat) : State :=
  { s.afterReads (s.pollsShape k) (k + 1) with
    gate := .gateOsc
    oscPolls := BitVec.ofNat 6 k
    status := s.upcomingByte (8 * k)
    warnFamily := s.warnFamily || familyMismatch expected s.chipId
    returned := s.returned }

/-- Where the gating stands after `k` polls, HALT and the read after it, that byte not yet examined (R190, R191). -/
def State.haltRead (expected : Byte) (s : State) (k : Nat) : State :=
  { s.afterReads (s.haltedShape k) (k + 3) with
    gate := .gateHalt
    oscPolls := BitVec.ofNat 6 k
    status := s.upcomingByte (8 * (k + 2))
    haltResp := s.upcomingByte (8 * (k + 1))
    warnFamily := s.warnFamily || familyMismatch expected s.chipId
    held := { s.held with req := 0, resp := 1, status := true, haltResp := true }
    returned := s.returned }

end Sys2Proof.Machine
end

