-- ==== Sys2Proof/Machine/Environment.lean ====
section
/-! DEFINITION. The environment contract (20_memory R80 to R86): what GARAGE says of the target, as named assumptions
a statement may adopt. No rule of the block depends on one of them, and none is part of the machine (log 23). -/

namespace Sys2Proof.Machine

/-! ### The link (R83) -/

/-- Dead link (R83): the next `n` samples all read the same level. -/
def State.DeadLink (s : State) (level : Bit) (n : Nat) : Prop := ∀ k, k < n → s.upcoming k = level

/-- Dead link, the general case (R83, "a dead link echoing a fixed byte"): each of the next `n` response bytes is `b`.
A line that reads constant is the case 0x00 or 0xFF (`State.DeadLink`). -/
def State.EchoLink (s : State) (b : Byte) (n : Nat) : Prop := ∀ k, k < n → s.upcomingByte (8 * k) = b

/-! ### The target -/

/-- Target state a client reaches through remote execution (10_state R43, R44): environment, not block state. -/
structure Target where
  /-- The pointer register. -/
  pointer : Half
  /-- The accumulator. -/
  acc : Byte
  /-- The target's `debug_locked` condition. -/
  locked : Bit
  /-- The contract's own count of the full erases the target has performed: what R85 makes the lock depend on. -/
  erases : Nat
  deriving DecidableEq, Repr

/-- Only a full erase clears the lock (R85): between any two moments without one a locked target stays locked, whatever
the block did in between, an exchange, an attach that resets the target, a gating, a client's own bits on the wire, a
reset of the block, or nothing. -/
def Target.LockKept (t t' : Target) : Prop :=
  t.erases ≤ t'.erases ∧ (t'.erases = t.erases → t.locked = true → t'.locked = true)

/-- The calls that may make the target perform a full erase: the CHIP_ERASE exchange (R161), and the calls by which a
client clocks the wire bit by bit or byte by byte, whose bits may make up its frame. The block's own `attach` and `gate`
never send it (R161, R182, R195); `set_dir` and a reset of the block make no clock edge. DESIGN CHOICE: the clocked calls
count whatever they send (log 23). -/
def Call.mayErase : Call → Bool
  | .exchange op req => op == 0x14 && req.isEmpty
  | .pulseClock | .writeBit _ | .readBit | .writeByte _ | .readByte => true
  | .remote _ | .setDir _ | .attach | .gate | .reset => false

/-- The target erases on command only (R161): over a call that cannot carry CHIP_ERASE it performs no full erase. DESIGN
CHOICE: the two ends agree on the pulse count; a misaligned target may read any frame (R69, log 23). -/
def Target.ErasesOnCommand (t t' : Target) (c : Call) : Prop := c.mayErase = false → t'.erases = t.erases

/-- The native instruction a command ships to the target (R94, R210): the request bytes of a DEBUG_INSTR exchange, be it
a client's own or a pseudo-operation's; none for the other commands. -/
def nativeBytes (i : Instr) : List Byte :=
  if i.record ∈ [Cmd.debugInstr1, Cmd.debugInstr2, Cmd.debugInstr3] then (wireBytes i).tail else []

/-- The exchange is a code read: the one `read_code_byte()` expands to, `XCHG DEBUG_INSTR_1 93` (R213, V15), named so by
the client or not. DESIGN CHOICE: the client's own spelling counts (log 22). -/
def isCodeRead (i : Instr) : Bool := nativeBytes i == [0x93]

/-- The exchange is a clear: the one `clear_accumulator()` expands to, `XCHG DEBUG_INSTR_1 E4` (R212, V15), named so by
the client or not. DESIGN CHOICE: the client's own spelling counts (log 22). -/
def isClear (i : Instr) : Bool := nativeBytes i == [0xE4]

/-- What the native instruction of a pseudo-operation does to the target, as far as GARAGE says (R211 to R216).
A code read says something only of an unlocked target and of an address inside the flash. Left open, so that any value
may be read: an address from 0x8000 on (R74, U18), pointer plus accumulator past 0xFFFF, where R213 gives the sum no
width, and a locked target (U12). Left open too: the accumulator after `set_pointer` and `increment_pointer`, an
increment at 0xFFFF (U18), everything after `write_special_register`. DESIGN CHOICE: the sum is taken without wrapping
(log 23). DEDUCED: `code` is one function of the address, so two reads of one flash address agree; no native instruction
GARAGE names writes flash, but an erase does, and one `code` is not meant for before and after it (log 23). -/
def Target.Effect (code : Nat → Byte) (t t' : Target) : Instr → Prop
  | .setPointer addr => t'.pointer = addr
  | .clearAccumulator => t'.acc = 0 ∧ t'.pointer = t.pointer
  | .loadAccumulatorImmediate imm => t'.acc = imm ∧ t'.pointer = t.pointer
  | .readCodeByte =>
    (t.locked = false → t.pointer.toNat + t.acc.toNat < flashSize →
      t'.acc = code (t.pointer.toNat + t.acc.toNat)) ∧ t'.pointer = t.pointer
  | .incrementPointer => t.pointer ≠ 0xFFFF → t'.pointer = t.pointer + 1
  | .writeSpecialRegister _ _ => True
  | .chipErase | .wrConfig _ | .rdConfig | .getPc | .readStatus | .halt | .resume | .debugInstr1 _
  | .debugInstr2 _ _ | .debugInstr3 _ _ _ | .getChipId => True

/-- The target executes the shipped bytes as one native instruction and reports the accumulator (R86), whichever command
or pseudo-operation ships them. Bytes that are none of the six of R99 do anything; a command that ships none (READ_STATUS,
HALT and the like) is answered in any way and does anything. DESIGN CHOICE: the assumption is taken as R86 words it, of
any target, although R154 and N17 say that what a DEBUG_INSTR does on a target that is running, locked or in normal boot
is not stated; a statement that adopts it is meant of a halted target in debug mode (log 23). -/
def Target.Executes (code : Nat → Byte) (t t' : Target) (i : Instr) (resp : Byte) : Prop :=
  nativeBytes i ≠ [] →
    resp = t'.acc ∧ ∀ p, decodeWhole .payload (nativeBytes i) = .ok p → Target.Effect code t t' p

end Sys2Proof.Machine
end

