-- ==== Sys2Proof/Safety.lean ====
section
/-! DEFINITION. What holds between the operations of a run: the link at rest (10_state R48), the sequencer's registers
consistent (R29, R30, R35 to R37, R49, R50), the trace in step with the pins and free of illegal events; and the
discipline a client owes the block (70_reset_and_hazards R277). -/

namespace Sys2Proof.Machine

/-- The link at rest: CLK low and reset released whenever no operation runs (R48). -/
def LinkAtRest (s : State) : Prop := s.link.clk = false ∧ s.link.resetN = true

/-- Between operations `state` is Idle, Verified or terminally Failed, and the attach registers agree with it
(R29, R30, R50, R170, R179). -/
def AttachConsistent (s : State) : Prop :=
  match s.seq with
  | .idle => s.attempts = 0 ∧ s.error = .none ∧ s.gate = .gateIdle
  | .verified =>
    s.attempts ≠ 0 ∧ s.held.chipId = true ∧ identityValid s.chipId = true ∧ s.error ≠ .linkAbsent
  | .failed =>
    s.attempts.toNat = Config.sequencing.maxAttempts ∧ s.held.chipId = true ∧ identityValid s.chipId = false ∧
      s.error = .linkAbsent ∧ s.gate = .gateIdle
  | _ => False

/-- Between operations `gate` is GateIdle, Approved or GateFatal, and the gating registers agree with it
(R34 to R37, R49, R192, R236). -/
def GateConsistent (s : State) : Prop :=
  match s.gate with
  | .gateIdle =>
    s.extractOk = false ∧ s.warnFamily = false ∧ s.oscPolls = 0 ∧ (s.error = .none ∨ s.error = .linkAbsent)
  | .approved =>
    s.extractOk = true ∧ s.seq = .verified ∧ s.error = .none ∧ s.held.status = true ∧ s.held.haltResp = true ∧
      debugLocked s.status = false ∧ cpuHalted s.status = true ∧
      s.warnFamily = familyMismatch Config.sequencing.expectedFamily s.chipId
  | .gateFatal =>
    s.extractOk = false ∧ s.seq = .verified ∧ s.held.status = true ∧
      s.warnFamily = familyMismatch Config.sequencing.expectedFamily s.chipId ∧
      (s.error = .debugLocked ∨ s.error = .oscillatorUnstable ∨ s.error = .haltVerificationFailed)
  | _ => False

/-- The invariant of the registers between operations. -/
def RegistersConsistent (s : State) : Prop :=
  s.session = .opened ∧ LinkAtRest s ∧ AttachConsistent s ∧ GateConsistent s ∧
    s.oscPolls.toNat ≤ Config.sequencing.maxOscPolls

/-- The invariant of the wire between operations: the trace leads to the levels the pins have, every event stands where
it may, and every reset window so far held exactly two rising edges and is closed (R12, R61 to R63, R76, R173). -/
def WireConsistent (s : State) : Prop :=
  Link.reset.replay s.trace = s.link ∧ orderly Link.reset s.trace = true ∧
    (∀ n ∈ windowEdges none s.trace, entersDebugMode n = true) ∧ s.trace.foldl windowAfter none = none

/-- Every code read among these exchanges stands immediately after a clear; `cleared` says whether the exchange before
the first of them was one. -/
def readsAfterClearsFrom : Bool → List Instr → Bool
  | _, [] => true
  | cleared, i :: rest => (!isCodeRead i || cleared) && readsAfterClearsFrom (isClear i) rest

/-- Every code read of a client program stands immediately after a clear (R213 (a), R277 (a)). DESIGN CHOICE: the
discipline is the exchanges', so a read or a clear the client spells as DEBUG_INSTR_1 93 or E4 counts too (log 22). -/
def readsAfterClears (program : List Instr) : Bool := readsAfterClearsFrom false program

/-- A client's exchange keeps the discipline of R213 (b) and R277 (d): a code read only while `extract_ok = 1`. DESIGN
CHOICE: as DEBUG_INSTR_1 93 too (log 22). -/
def allowsRead (s : State) (i : Instr) : Bool := !isCodeRead i || s.extractOk

end Sys2Proof.Machine
end

