-- ==== Sys2Proof/WellFormed.lean ====
section
/-! DEFINITION. Well-formed invocations: what `exchange` asks of its arguments (41_commandchannel R140, R141), what a
payload must be (30_encoding R99), and that an instruction's own bytes meet it. An `Instr`'s operands carry their
widths in their types, so an ill-formed invocation can only be given as bytes. -/

namespace Sys2Proof

/-- `exchange(op, req)` has a record and exactly the record's number of request bytes (R141). -/
def frameWellFormed (op : Byte) (req : List Byte) : Bool :=
  match cmdLookup op with
  | some r => req.length == r.nreq.val
  | none => false

/-- The bytes are one of the six payloads, whole (R99). -/
def payloadWellFormed : List Byte → Bool
  | [] => false
  | b :: rest =>
    match payloadLookup b with
    | some row => rest.length == row.extra
    | none => false

/-- The frame the block sends for the instruction is one `exchange` admits, and a payload's bytes are a payload. -/
def Instr.wellFormed (i : Instr) : Bool :=
  (match wireBytes i with
    | op :: req => frameWellFormed op req
    | [] => false) &&
  (match i.space with
    | .frame => true
    | .payload => payloadWellFormed (encode i))

end Sys2Proof
end

