-- ==== Sys2Proof/Certificates/Slice0/Obligations.lean ====
section
/-! DEFINITION. The statements for the provers. Each says what the spec's numbered rules, or its sections, say the
block does; OBLIGATIONS.json lists them with their sources. `s` is any state the hypotheses admit, reached by a run or
not; a sample is always the target's free answer (`State.upcoming`). -/

open Sys2Proof Sys2Proof.Machine

/-! ### Reset -/

/-- R46: the value of every register the rule gives one, and which hold none. -/
def Obligations.ResetValues : Prop :=
  State.reset.session = .opened ∧ State.reset.link.clk = false ∧ State.reset.link.dataDir = .inp ∧
    State.reset.link.dataOut = false ∧ State.reset.link.resetN = true ∧ State.reset.seq = .idle ∧
    State.reset.attempts = 0 ∧ State.reset.error = .none ∧ State.reset.warnFamily = false ∧
    State.reset.gate = .gateIdle ∧ State.reset.oscPolls = 0 ∧ State.reset.extractOk = false ∧
    State.reset.chipIdReading = none ∧ State.reset.statusReading = none ∧ State.reset.haltRespReading = none ∧
    State.reset.held.req = 0 ∧ State.reset.held.resp = 0 ∧ State.reset.trace = []

/-- Reset as a client's call, from any state at all, a fatal end and a closed session among them: every register at its
reset value; what is outside the block, the client's other calls and the target's answers, is not touched (the last is
the model's choice, log 7). -/
def Obligations.ResetCallStartsASession : Prop :=
  ∀ (s : State) (rest : List Call), s.calls = .reset :: rest →
    ∃ t, step s = .next t ∧
      { t with calls := [], answers := [], samples := 0 } = State.reset ∧
      t.calls = rest ∧ t.answers = s.answers ∧ t.samples = s.samples

/-! ### Tables and encodings -/

/-- R92 and R73: opcode, request count, response count of every record and the frame bytes and pulses they give; no
other of the 256 opcode values has a record, and `exchange` refuses every one without. -/
def Obligations.CommandSpaceMap : Prop :=
  cmdTable.map (fun r => (r.opcode, r.nreq.val, r.nresp.val, 1 + r.nreq.val + r.nresp.val,
      8 * (1 + r.nreq.val + r.nresp.val))) =
    [ (0x14#8, 0, 1, 2, 16), (0x1D#8, 1, 1, 3, 24), (0x24#8, 0, 1, 2, 16), (0x28#8, 0, 2, 3, 24),
      (0x34#8, 0, 1, 2, 16), (0x44#8, 0, 1, 2, 16), (0x4C#8, 0, 1, 2, 16), (0x55#8, 1, 1, 3, 24),
      (0x56#8, 2, 1, 4, 32), (0x57#8, 3, 1, 5, 40), (0x68#8, 0, 2, 3, 24) ] ∧
  (∀ op : Byte, (cmdLookup op).isSome = true ↔
    op ∈ [0x14#8, 0x1D#8, 0x24#8, 0x28#8, 0x34#8, 0x44#8, 0x4C#8, 0x55#8, 0x56#8, 0x57#8, 0x68#8]) ∧
  ∀ (s : State) (op : Byte) (req : List Byte) (rest : List Call),
    s.calls = .exchange op req :: rest → cmdLookup op = none → step s = .refused .noRecord

/-- R93, an observation about the table: the low two opcode bits are `nreq`, bit 2 is 0 exactly where `nresp` is 2,
exactly the opcodes 0x28 and 0x68, and the three DEBUG_INSTR opcodes are 0x54 + `nreq`. -/
def Obligations.TableRegularities : Prop :=
  (∀ r ∈ cmdTable, (r.opcode.extractLsb' 0 2).toNat = r.nreq.val ∧ (r.opcode.getLsbD 2 = false ↔ r.nresp.val = 2) ∧
    (r.opcode.getLsbD 2 = true ↔ r.nresp.val = 1) ∧
    (r.nresp.val = 2 ↔ r.opcode = 0x28 ∨ r.opcode = 0x68)) ∧
  (cmdTable.countP fun r => r.nresp.val == 1) = 9 ∧
  ∀ r ∈ [Cmd.debugInstr1, Cmd.debugInstr2, Cmd.debugInstr3], r.opcode = 0x54 + BitVec.ofNat 8 r.nreq.val

/-- A few words written out from R92 and R99, one of each frame length and one of each payload length. That a word is
read as a frame or as a payload by its first byte is the model's choice (DESIGN CHOICE, log 18). -/
def Obligations.SomeWordsDecode : Prop :=
  decodeTableWord 8 0b01000100 = some .halt ∧
    decodeTableWord 16 0b11100100_01010101 = some (.debugInstr1 0xE4) ∧
    decodeTableWord 24 0b01011010_01110100_01010110 = some (.debugInstr2 0x74 0x5A) ∧
    decodeTableWord 32 0b00110100_00010010_10010000_01010111 = some (.debugInstr3 0x90 0x12 0x34) ∧
    decodeTableWord 24 0b00110100_00010010_10010000 = some (.setPointer 0x1234) ∧
    decodeTableWord 16 0b01011010_01110100 = some (.loadAccumulatorImmediate 0x5A) ∧
    decodeTableWord 8 0b10010011 = some .readCodeByte ∧
    decodeTableWord 8 0b00110101 = none

/-- Decoding an encoding, whatever follows it, gives the instruction back and the rest untouched, and the frame the block
sends for it is one `exchange` admits. -/
def Obligations.DecodeOfEncode : Prop :=
  ∀ (i : Instr) (rest : List Byte), i.wellFormed = true ∧ decode i.space (encode i ++ rest) = .ok (i, rest)

/-- Bytes that decode whole are exactly the encoding of what they decode to: no bit is dropped, and each instruction
has one encoding in its space. -/
def Obligations.EncodeOfDecode : Prop :=
  ∀ (sp : Space) (bytes : List Byte) (i : Instr), decodeWhole sp bytes = .ok i → encode i = bytes ∧ i.space = sp

/-- A client's bytes decode exactly when they are well formed: a known opcode with its record's number of request
bytes (R141), or one of the six payloads whole (R99). -/
def Obligations.DecodesExactlyWellFormed : Prop :=
  (∀ (op : Byte) (req : List Byte),
    (∃ i, decodeWhole .frame (op :: req) = .ok i) ↔ frameWellFormed op req = true) ∧
  ∀ bytes : List Byte, (∃ i, decodeWhole .payload bytes = .ok i) ↔ payloadWellFormed bytes = true

/-- R96: every field of a status byte, and the worked value 0x24. -/
def Obligations.StatusByteLayout : Prop :=
  (∀ st : Byte, decodeStatus st =
    { chipEraseDone := st &&& 0x80 != 0, pconIdle := st &&& 0x40 != 0, cpuHalted := st &&& 0x20 != 0,
      pmActive := st &&& 0x10 != 0, haltStatus := st &&& 0x08 != 0, debugLocked := st &&& 0x04 != 0,
      oscillatorStable := st &&& 0x02 != 0, stackOverflow := st &&& 0x01 != 0 }) ∧
  decodeStatus 0x24 =
    { chipEraseDone := false, pconIdle := false, cpuHalted := true, pmActive := false, haltStatus := false,
      debugLocked := true, oscillatorStable := false, stackOverflow := false }

/-- R97: the identity from the two response bytes, its two halves, and which values are invalid. -/
def Obligations.ChipIdentityAssembly : Prop :=
  (∀ s : State, (readIdentity s).chipId = joinBytes (readIdentity s).resp0 (readIdentity s).resp1 ∧
    family (readIdentity s).chipId = (readIdentity s).resp0 ∧
    revision (readIdentity s).chipId = (readIdentity s).resp1) ∧
  (∀ id : Half, identityValid id = false ↔ id = 0x0000 ∨ id = 0xFFFF) ∧
  joinBytes 0x89 0xA3 = 0x89A3 ∧ identityValid 0x00FF = true ∧ identityValid 0xFF00 = true ∧
  identityValid 0x0001 = true

/-! ### The step -/

/-- Bytes a client hands over that decode to an instruction: the step is `exec` of it, the call being taken off the
list first. The list of calls and the taking off (log 1), and a table word as the client's next invocation
(`withFetchWord`, log 1 and 18), are the model's own conventions (DESIGN CHOICE), not the spec's. -/
def Obligations.StepRunsDecodedInstruction : Prop :=
  (∀ (s : State) (op : Byte) (req : List Byte) (rest : List Call) (i : Instr),
    s.calls = .exchange op req :: rest → decodeWhole .frame (op :: req) = .ok i →
    step s = exec i { s with calls := rest }) ∧
  (∀ (s : State) (payload : List Byte) (rest : List Call) (i : Instr),
    s.calls = .remote payload :: rest → decodeWhole .payload payload = .ok i →
    step s = exec i { s with calls := rest }) ∧
  ∀ (s : State) (nbits w : Nat) (i : Instr), decodeTableWord nbits w = some i →
    step (s.withFetchWord nbits w) = exec i s

/-- With no call pending the block does nothing (R261); the other calls run their operation. -/
def Obligations.StepRunsOperations : Prop :=
  (∀ s : State, s.calls = [] → step s = .next s) ∧
  ∀ (s : State) (rest : List Call),
    (∀ d, s.calls = .setDir d :: rest → step s = callSetDir d { s with calls := rest }) ∧
    (s.calls = .pulseClock :: rest → step s = callPulseClock { s with calls := rest }) ∧
    (∀ v, s.calls = .writeBit v :: rest → step s = callWriteBit v { s with calls := rest }) ∧
    (s.calls = .readBit :: rest → step s = callReadBit { s with calls := rest }) ∧
    (∀ x, s.calls = .writeByte x :: rest → step s = callWriteByte x { s with calls := rest }) ∧
    (s.calls = .readByte :: rest → step s = callReadByte { s with calls := rest }) ∧
    (s.calls = .attach :: rest → step s = callAttach Config.sequencing { s with calls := rest }) ∧
    (s.calls = .gate :: rest → step s = callGate Config.sequencing { s with calls := rest })

/-- While the session is closed no operation is defined (R25): every call but reset, and every instruction, is refused. -/
def Obligations.ClosedSessionRefuses : Prop :=
  (∀ (s : State) (c : Call) (rest : List Call), s.session = .closed → s.calls = c :: rest → c ≠ .reset →
    ∃ r, step s = .refused r) ∧
  ∀ (i : Instr) (s : State), s.session = .closed → exec i s = .refused .sessionClosed

/-! ### Primitives -/

/-- R11: what each of the six primitives writes, and the one event it appends; `Sample` and `Wait` write no register. -/
def Obligations.PrimitivesAppendOneEvent : Prop :=
  ∀ (s : State) (v : Bit) (d : Dir) (t : Delay),
    driveClk v s = { s with link := { s.link with clk := v }, trace := s.trace ++ [.clk v] } ∧
    driveData v s = { s with link := { s.link with dataOut := v }, trace := s.trace ++ [.data v] } ∧
    setDirRaw d s = { s with link := { s.link with dataDir := d }, trace := s.trace ++ [.dir d] } ∧
    driveReset v s = { s with link := { s.link with resetN := v }, trace := s.trace ++ [.rst v] } ∧
    sample s = (s.upcoming 0, { s with samples := s.samples + 1, trace := s.trace ++ [.sample (s.upcoming 0)] }) ∧
    wait t s = { s with trace := s.trace ++ [.wait t] }

/-! ### BitClock -/

/-- R120: the switch with its wait, nothing where the direction is held already, the latch and the other pins kept. -/
def Obligations.SetDirSwitchesAndWaits : Prop :=
  ∀ (s : State) (d : Dir), s.session = .opened →
    (s.link.dataDir ≠ d → callSetDir d s =
      .next { s with
        link := { s.link with dataDir := d }
        trace := s.trace ++ [.dir d, .wait .tDir]
        returned := .nothing }) ∧
    (s.link.dataDir = d → callSetDir d s = .next { s with returned := .nothing })

/-- R121: high for `T_HALF`, then low for `T_HALF`; one edge each way; nothing else changes. -/
def Obligations.PulseClockPulses : Prop :=
  ∀ s : State, s.session = .opened → s.link.clk = false → callPulseClock s =
    .next { s with
      trace := s.trace ++ [.clk true, .wait .tHalf, .clk false, .wait .tHalf]
      returned := .nothing }

/-- R122: the level before the rising edge, the pulse, the latch; the event is appended whatever the latch held; refused
while the line is IN. -/
def Obligations.WriteBitDrivesAndPulses : Prop :=
  ∀ (s : State) (v : Bit), s.session = .opened →
    (s.link.dataDir = .out → s.link.clk = false → callWriteBit v s =
      .next { s with
        link := { s.link with dataOut := v }
        trace := s.trace ++ [.data v, .clk true, .wait .tHalf, .clk false, .wait .tHalf]
        returned := .nothing }) ∧
    (s.link.dataDir = .inp → callWriteBit v s = .refused .wrongDirection)

/-- R123: the target's bit, sampled after the high half and before the falling edge, is handed back; refused while the
line is OUT. -/
def Obligations.ReadBitSamplesWhileHigh : Prop :=
  ∀ s : State, s.session = .opened →
    (s.link.dataDir = .inp → s.link.clk = false → callReadBit s =
      .next { s with
        trace := s.trace ++ [.clk true, .wait .tHalf, .sample (s.upcoming 0), .clk false, .wait .tHalf]
        samples := s.samples + 1
        returned := .bit (s.upcoming 0) }) ∧
    (s.link.dataDir = .out → callReadBit s = .refused .wrongDirection)

/-- R124: eight bits, bit 7 first, 40 events, 8 rising edges, at least 16 half-periods, bit 0 left in the latch;
refused while the line is IN. -/
def Obligations.WriteByteSendsMsbFirst : Prop :=
  ∀ (s : State) (x : Byte), s.session = .opened →
    (s.link.dataDir = .out → s.link.clk = false → ∃ evs,
      callWriteByte x s =
        .next { s with
          link := { s.link with dataOut := x.getLsbD 0 }
          trace := s.trace ++ evs
          returned := .nothing } ∧
      evs = [x.getLsbD 7, x.getLsbD 6, x.getLsbD 5, x.getLsbD 4, x.getLsbD 3, x.getLsbD 2, x.getLsbD 1,
        x.getLsbD 0].flatMap (fun b => [.data b, .clk true, .wait .tHalf, .clk false, .wait .tHalf]) ∧
      evs.length = 40 ∧ risingEdges evs = 8 ∧
      (∀ time, leastDuration time evs = 16 * time .tHalf)) ∧
    (s.link.dataDir = .inp → callWriteByte x s = .refused .wrongDirection)

/-- R125, R128: one pre-read wait, eight samples, the first as bit 7; 41 events, 8 rising edges, the least duration; the
byte is handed back; refused while the line is OUT. -/
def Obligations.ReadByteAssemblesMsbFirst : Prop :=
  ∀ s : State, s.session = .opened →
    (s.link.dataDir = .inp → s.link.clk = false → ∃ (x : Byte) (evs : List Event),
      callReadByte s =
        .next { s with
          trace := s.trace ++ evs
          samples := s.samples + 8
          returned := .byte x } ∧
      (∀ k, k < 8 → x.getLsbD (7 - k) = s.upcoming k) ∧
      evs = .wait .tPre :: (List.range 8).flatMap (fun k =>
        [.clk true, .wait .tHalf, .sample (s.upcoming k), .clk false, .wait .tHalf]) ∧
      evs.length = 41 ∧ risingEdges evs = 8 ∧
      (∀ time, leastDuration time evs = time .tPre + 16 * time .tHalf)) ∧
    (s.link.dataDir = .out → callReadByte s = .refused .wrongDirection)

/-- R127: every BitClock operation leaves CLK low and RESET_N alone, only `set_dir` changes the direction, and the
number of rising edges of each. -/
def Obligations.BitClockEdges : Prop :=
  ∀ (s : State) (c : Call) (n : Nat) (t : State),
    (c, n) ∈ [(.pulseClock, 1), (.writeBit true, 1), (.writeBit false, 1), (.readBit, 1), (.readByte, 8)] ∨
      (∃ d, (c, n) = (.setDir d, 0)) ∨ (∃ x, (c, n) = (.writeByte x, 8)) →
    s.link.clk = false → runCall c s = .next t →
    t.link.clk = false ∧ t.link.resetN = s.link.resetN ∧
      ((∀ d, c ≠ .setDir d) → t.link.dataDir = s.link.dataDir) ∧
      ∃ evs, t.trace = s.trace ++ evs ∧ risingEdges evs = n

/-! ### CommandChannel: results -/

/-- The seven commands with no request byte: the exchange of their opcode is performed, from any sequencer state, and
the one or two response bytes are handed back uninterpreted; the 16-bit value of GET_PC has the first byte high. -/
def Obligations.CommandsWithoutRequestBytes : Prop :=
  ∀ s : State, s.session = .opened → s.link.clk = false →
    exec .chipErase s = .next (s.commanded ⟨0x14, 0, 1⟩ []) ∧
    exec .rdConfig s = .next (s.commanded ⟨0x24, 0, 1⟩ []) ∧
    exec .readStatus s = .next (s.commanded ⟨0x34, 0, 1⟩ []) ∧
    exec .halt s = .next (s.commanded ⟨0x44, 0, 1⟩ []) ∧
    exec .resume s = .next (s.commanded ⟨0x4C, 0, 1⟩ []) ∧
    exec .getPc s = .next (s.commanded ⟨0x28, 0, 2⟩ []) ∧
    exec .getChipId s = .next (s.commanded ⟨0x68, 0, 2⟩ []) ∧
    (s.commanded ⟨0x14, 0, 1⟩ []).returned = .bytes [s.upcomingByte 0] ∧
    (s.commanded ⟨0x28, 0, 2⟩ []).returned = .bytes [s.upcomingByte 0, s.upcomingByte 8] ∧
    (s.commanded ⟨0x28, 0, 2⟩ []).respHalf = joinBytes (s.upcomingByte 0) (s.upcomingByte 8)

/-- The commands with request bytes: the bytes go out as they are, after the opcode, in order. -/
def Obligations.CommandsWithRequestBytes : Prop :=
  ∀ (s : State) (b0 b1 b2 : Byte), s.session = .opened → s.link.clk = false →
    exec (.wrConfig b0) s = .next (s.commanded ⟨0x1D, 1, 1⟩ [b0]) ∧
    exec (.debugInstr1 b0) s = .next (s.commanded ⟨0x55, 1, 1⟩ [b0]) ∧
    exec (.debugInstr2 b0 b1) s = .next (s.commanded ⟨0x56, 2, 1⟩ [b0, b1]) ∧
    exec (.debugInstr3 b0 b1 b2) s = .next (s.commanded ⟨0x57, 3, 1⟩ [b0, b1, b2])

/-- The expansions of R211 to R216: each pseudo-operation is one exchange of the DEBUG_INSTR command of its length, with
these bytes on the wire; and the worked `set_pointer(0x1234)`. -/
def Obligations.PseudoOperationsExpand : Prop :=
  ∀ (s : State) (addr : Half) (addr8 imm : Byte), s.session = .opened → s.link.clk = false →
    (exec (.setPointer addr) s =
        .next (s.commanded ⟨0x57, 3, 1⟩ [0x90, addr.extractLsb' 8 8, addr.extractLsb' 0 8]) ∧
      wireBytes (.setPointer addr) = [0x57, 0x90, addr.extractLsb' 8 8, addr.extractLsb' 0 8]) ∧
    (exec .clearAccumulator s = .next (s.commanded ⟨0x55, 1, 1⟩ [0xE4]) ∧
      wireBytes .clearAccumulator = [0x55, 0xE4]) ∧
    (exec (.loadAccumulatorImmediate imm) s = .next (s.commanded ⟨0x56, 2, 1⟩ [0x74, imm]) ∧
      wireBytes (.loadAccumulatorImmediate imm) = [0x56, 0x74, imm]) ∧
    (exec .readCodeByte s = .next (s.commanded ⟨0x55, 1, 1⟩ [0x93]) ∧ wireBytes .readCodeByte = [0x55, 0x93]) ∧
    (exec .incrementPointer s = .next (s.commanded ⟨0x55, 1, 1⟩ [0xA3]) ∧
      wireBytes .incrementPointer = [0x55, 0xA3]) ∧
    (exec (.writeSpecialRegister addr8 imm) s = .next (s.commanded ⟨0x57, 3, 1⟩ [0x75, addr8, imm]) ∧
      wireBytes (.writeSpecialRegister addr8 imm) = [0x57, 0x75, addr8, imm]) ∧
    wireBytes (.setPointer 0x1234) = [0x57, 0x90, 0x12, 0x34]

/-- R141: `exchange` is refused exactly for an unknown opcode or another number of request bytes; else it is performed. -/
def Obligations.ExchangeRefusals : Prop :=
  ∀ (s : State) (op : Byte) (req : List Byte) (rest : List Call), s.session = .opened → s.link.clk = false →
    s.calls = .exchange op req :: rest →
    (cmdLookup op = none → step s = .refused .noRecord) ∧
    ∀ r, cmdLookup op = some r →
      (req.length ≠ r.nreq.val → step s = .refused .wrongRequestCount) ∧
      (req.length = r.nreq.val → step s = .next ({ s with calls := rest }.commanded r req))

/-! ### CommandChannel: the wire -/

/-- R142, R68: the events of every exchange from a line that is IN, their number, the pulses and the least duration. -/
def Obligations.ExchangeTraceShape : Prop :=
  ∀ (i : Instr) (s t : State) (r : CmdRecord), s.link.dataDir = .inp → exec i s = .next t →
    cmdLookup ((wireBytes i).headD 0) = some r →
    ∃ evs,
      t.trace = s.trace ++ evs ∧
      evs = [.dir .out, .wait .tDir] ++ (wireBytes i).flatMap writeByteShape ++ [.dir .inp, .wait .tDir] ++
        (s.upcomingBytes r.nresp.val).flatMap readByteShape ∧
      (wireBytes i).length = 1 + r.nreq.val ∧
      evs.length = 4 + 40 * (1 + r.nreq.val) + 41 * r.nresp.val ∧
      risingEdges evs = 8 * (1 + r.nreq.val + r.nresp.val) ∧
      ∀ time, leastDuration time evs = 2 * time .tDir + r.nresp.val * time .tPre +
        16 * (1 + r.nreq.val + r.nresp.val) * time .tHalf

/-- R76: within an exchange every DATA precedes the `DIR(IN)`, every SAMPLE follows it. -/
def Obligations.ExchangeIsHalfDuplex : Prop :=
  ∀ (i : Instr) (s t : State), exec i s = .next t →
    ∃ before after, t.trace = s.trace ++ (before ++ .dir .inp :: after) ∧
      sampled before = [] ∧ (∀ v, .data v ∉ after) ∧ (∀ d, .dir d ∉ after) ∧ latched s.link before ≠ []

/-- What the target takes at the falling edges of a command is exactly the frame's bytes, opcode first, bit 7 first,
and what it presents is exactly the response bytes, bit 7 first (R61, R64, R65, R94). -/
def Obligations.TargetTakesTheFrame : Prop :=
  ∀ (i : Instr) (s t : State), exec i s = .next t →
    ∃ evs resp, t.trace = s.trace ++ evs ∧
      latched s.link evs = (wireBytes i).flatMap bitsMsbFirst ∧
      sampled evs = resp.flatMap bitsMsbFirst ∧ t.returned = .bytes resp ∧
      sampled evs = (List.range (8 * resp.length)).map s.upcoming

/-- The frame of every instruction: only the link's direction and latch, the request and response buffers, the model's
marks and counters, and the end of the trace change; no sequencer register, no flag, no reset line. -/
def Obligations.CommandsFrame : Prop :=
  ∀ (i : Instr) (s t : State), exec i s = .next t →
    t.session = s.session ∧ t.seq = s.seq ∧ t.attempts = s.attempts ∧ t.chipId = s.chipId ∧ t.status = s.status ∧
      t.error = s.error ∧ t.warnFamily = s.warnFamily ∧ t.gate = s.gate ∧ t.oscPolls = s.oscPolls ∧
      t.extractOk = s.extractOk ∧ t.haltResp = s.haltResp ∧ t.answers = s.answers ∧ t.calls = s.calls ∧
      t.link.resetN = s.link.resetN ∧ t.link.clk = false ∧ t.link.dataDir = .inp ∧
      t.held.chipId = s.held.chipId ∧ t.held.status = s.held.status ∧ t.held.haltResp = s.held.haltResp ∧
      t.held.req = (wireBytes i).length - 1 ∧
      ((wireBytes i).length ≤ 1 → t.req0 = s.req0) ∧ ((wireBytes i).length ≤ 2 → t.req1 = s.req1) ∧
      ((wireBytes i).length ≤ 3 → t.req2 = s.req2) ∧ (t.held.resp ≤ 1 → t.resp1 = s.resp1) ∧
      (∃ evs, t.trace = s.trace ++ evs)

/-- What a command does to the block does not depend on what the target answers (R143): from two states that differ in
the answers alone, the same driven events in the same order, and the same registers but for `resp[]`. -/
def Obligations.CommandsDoNotInterpretResponses : Prop :=
  ∀ (i : Instr) (s t : State) (other : List Bit), exec i s = .next t →
    ∃ u, exec i { s with answers := other } = .next u ∧
      u.trace.map Event.driven = t.trace.map Event.driven ∧
      { u with trace := [], answers := [], resp0 := 0, resp1 := 0, returned := .nothing } =
        { t with trace := [], answers := [], resp0 := 0, resp1 := 0, returned := .nothing }

/-! ### attach -/

/-- R172 to R176: what each phase of an attempt writes, in order. -/
def Obligations.AttemptPhases : Prop :=
  ∀ s : State,
    (assertReset s = { s with
      attempts := s.attempts + 1, seq := .resetAsserted, link := { s.link with resetN := false }
      trace := s.trace ++ [.rst false, .wait .tResetHold] }) ∧
    (s.link.clk = false → twoClockEdges s = { s with
      seq := .twoClockEdges
      trace := s.trace ++ [.clk true, .wait .tHalf, .clk false, .wait .tHalf,
        .clk true, .wait .tHalf, .clk false, .wait .tHalf] }) ∧
    (releaseReset s = { s with
      seq := .resetReleased, link := { s.link with resetN := true }, trace := s.trace ++ [.rst true] }) ∧
    (settle s = { s with seq := .settling, trace := s.trace ++ [.wait .tStartup] }) ∧
    (readIdentity s = { s.exchanged ⟨0x68, 0, 2⟩ with
      chipId := joinBytes (s.upcomingByte 0) (s.upcomingByte 8)
      held := { s.held with req := 0, resp := 2, chipId := true } })

/-- R184: the trace of one attempt from a line that is IN: its length, its rising edges with reset low and with reset
high, its least duration; and a whole `attach` is one, two or three such traces back to back. -/
def Obligations.AttemptTrace : Prop :=
  (∀ s : State, s.link.dataDir = .inp →
    ∃ evs, (attempt s).trace = s.trace ++ evs ∧
      evs = [.rst false, .wait .tResetHold,
          .clk true, .wait .tHalf, .clk false, .wait .tHalf, .clk true, .wait .tHalf, .clk false, .wait .tHalf,
          .rst true, .wait .tStartup] ++
        exchangeShape .inp [0x68] [s.upcomingByte 0, s.upcomingByte 8] ∧
      evs.length = 138 ∧ risingEdges evs = 26 ∧ risingEdges (evs.take 10) = 2 ∧ evs[10]? = some (.rst true) ∧
      windowEdges none evs = [2] ∧
      ∀ time, leastDuration time evs = time .tResetHold + time .tStartup + 2 * time .tDir + 2 * time .tPre +
        52 * time .tHalf) ∧
  ∀ s t : State, s.link.dataDir = .inp → s.attempts = 0 → callAttach Config.sequencing s = .next t →
    ∃ k, 1 ≤ k ∧ k ≤ 3 ∧ t.trace = s.trace ++
      (List.range k).flatMap fun j =>
        attemptShape .inp (s.upcomingByte (16 * j)) (s.upcomingByte (16 * j + 8))

/-- R183, first half, with the whole state: the first valid identity among the three attempts decides, later attempts
are never made. -/
def Obligations.AttachVerifiesAtFirstValidIdentity : Prop :=
  ∀ (s : State) (k : Nat), s.session = .opened → s.link.clk = false → s.seq = .idle → s.attempts = 0 →
    1 ≤ k → k ≤ 3 → (∀ j, j < k - 1 → identityValid (s.upcomingId j) = false) →
    identityValid (s.upcomingId (k - 1)) = true →
    callAttach Config.sequencing s = .next { s.afterAttempts k with seq := .verified }

/-- R232: with no valid identity in the three attempts the end is LinkAbsent, with the last reading kept. -/
def Obligations.AttachEndsInLinkAbsent : Prop :=
  ∀ s : State, s.session = .opened → s.link.clk = false → s.seq = .idle → s.attempts = 0 → s.error = .none →
    (∀ j, j < 3 → identityValid (s.upcomingId j) = false) →
    callAttach Config.sequencing s =
      .next { s.afterAttempts 3 with seq := .failed, error := .linkAbsent }

/-- R183: Verified iff some attempt within the budget reads a valid identity; Failed with LinkAbsent iff none does. -/
def Obligations.AttachOutcomeLaw : Prop :=
  ∀ s : State, s.session = .opened → s.link.clk = false → s.seq = .idle → s.attempts = 0 → s.error = .none →
    ∃ t, callAttach Config.sequencing s = .next t ∧
      (t.seq = .verified ↔ ∃ j, j < 3 ∧ identityValid (s.upcomingId j) = true) ∧
      ((t.seq = .failed ∧ t.error = .linkAbsent) ↔ ∀ j, j < 3 → identityValid (s.upcomingId j) = false) ∧
      (t.seq = .verified → t.error = .none ∧ ∃ k, k < 3 ∧ t.attempts = BitVec.ofNat 2 (k + 1) ∧
        t.chipId = s.upcomingId k ∧ identityValid (s.upcomingId k) = true ∧
        ∀ j, j < k → identityValid (s.upcomingId j) = false) ∧
      (t.seq = .failed → t.attempts = 3 ∧ t.chipId = s.upcomingId 2)

/-- R181: refused from every state but Idle; and after a reset of the block it is admitted again. -/
def Obligations.AttachOnlyFromIdle : Prop :=
  (∀ s : State, s.session = .opened → s.seq ≠ .idle →
    callAttach Config.sequencing s = .refused .attachNotIdle) ∧
  ∀ s : State, ∃ t, callReset s = .next t ∧ ∃ u, callAttach Config.sequencing t = .next u

/-- What `attach` leaves alone: the gating's registers, the request buffer, the status and HALT bytes, and what is
outside the block. -/
def Obligations.AttachFrame : Prop :=
  ∀ (s t : State), callAttach Config.sequencing s = .next t →
    t.session = s.session ∧ t.req0 = s.req0 ∧ t.req1 = s.req1 ∧ t.req2 = s.req2 ∧ t.status = s.status ∧
      t.warnFamily = s.warnFamily ∧ t.gate = s.gate ∧ t.oscPolls = s.oscPolls ∧ t.extractOk = s.extractOk ∧
      t.haltResp = s.haltResp ∧ t.held.status = s.held.status ∧ t.held.haltResp = s.held.haltResp ∧
      t.answers = s.answers ∧ t.calls = s.calls ∧ t.link.resetN = true ∧ t.link.clk = false ∧
      t.link.dataDir = .inp ∧ (∃ evs, t.trace = s.trace ++ evs)

/-- R182: `attach` from a line that is IN sends GET_CHIP_ID, one to three times, and nothing else; it drives no data
while reset is low, and it never leaves reset asserted. -/
def Obligations.AttachSendsIdentityReadsOnly : Prop :=
  ∀ s t : State, s.attempts = 0 → s.link.dataDir = .inp → callAttach Config.sequencing s = .next t →
    t.link.resetN = true ∧
    ∃ k, 1 ≤ k ∧ k ≤ 3 ∧ t.attempts = BitVec.ofNat 2 k ∧ t.trace = s.trace ++ s.attemptsShape k ∧
      latched s.link (s.attemptsShape k) = (List.replicate k (0x68#8)).flatMap bitsMsbFirst ∧
      windowEdges none (s.attemptsShape k) = List.replicate k 2 ∧
      ∀ v, .data v ∉ entryShape ∧ .sample v ∉ entryShape

/-! ### gate -/

/-- R185 with R190 to R192: the approved end, with the whole state: `k` polls, HALT once, the byte after it unlocked and
halted; its oscillator bit is not asked for. -/
def Obligations.GateApproves : Prop :=
  ∀ (s : State) (k : Nat), s.session = .opened → s.link.clk = false → s.seq = .verified → s.gate = .gateIdle →
    s.error = .none → k ≤ 50 → s.stableAfter k →
    debugLocked (s.upcomingByte (8 * (k + 2))) = false → cpuHalted (s.upcomingByte (8 * (k + 2))) = true →
    callGate Config.sequencing s = .next { s.afterReads (s.haltedShape k) (k + 3) with
      gate := .approved
      extractOk := true
      status := s.upcomingByte (8 * (k + 2))
      haltResp := s.upcomingByte (8 * (k + 1))
      oscPolls := BitVec.ofNat 6 k
      warnFamily := s.warnFamily || familyMismatch Config.expectedFamily s.chipId
      held := { s.held with req := 0, resp := 1, status := true, haltResp := true } }

/-- R187, R188, R233 before HALT: the first byte with the lock ends the gating at once, after `j` polls; no HALT. -/
def Obligations.GateEndsLockedBeforeHalt : Prop :=
  ∀ (s : State) (j : Nat), s.session = .opened → s.link.clk = false → s.seq = .verified → s.gate = .gateIdle →
    s.error = .none → j ≤ 50 → (∀ i, i < j → s.stillUnstable i) → debugLocked (s.upcomingByte (8 * j)) = true →
    ∃ polls, (j = 0 → polls = s.oscPolls) ∧ (0 < j → polls = BitVec.ofNat 6 j) ∧
      callGate Config.sequencing s = .next { s.afterReads (s.pollsShape j) (j + 1) with
        gate := .gateFatal
        error := .debugLocked
        status := s.upcomingByte (8 * j)
        oscPolls := polls
        warnFamily := s.warnFamily || familyMismatch Config.expectedFamily s.chipId }

/-- R234: the fatal end after 50 polls, 51 status bytes examined, no HALT; and it comes after more than 50 ms, whatever
the durations R8 leaves OPEN (R189, R280). -/
def Obligations.GateEndsUnstable : Prop :=
  ∀ s : State, s.session = .opened → s.link.clk = false → s.seq = .verified → s.gate = .gateIdle →
    s.error = .none → (∀ j, j < 51 → s.stillUnstable j) →
    callGate Config.sequencing s = .next { s.afterReads (s.pollsShape 50) 51 with
      gate := .gateFatal
      error := .oscillatorUnstable
      status := s.upcomingByte (8 * 50)
      oscPolls := 50
      warnFamily := s.warnFamily || familyMismatch Config.expectedFamily s.chipId } ∧
    ∀ time, Config.Timing time → 50 < leastDuration time (s.pollsShape 50)

/-- R235 and R233 after HALT: the byte read right after HALT decides, the lock before the halt bit. -/
def Obligations.GateEndsFatalAfterHalt : Prop :=
  ∀ (s : State) (k : Nat), s.session = .opened → s.link.clk = false → s.seq = .verified → s.gate = .gateIdle →
    s.error = .none → k ≤ 50 → s.stableAfter k →
    (debugLocked (s.upcomingByte (8 * (k + 2))) = true ∨ cpuHalted (s.upcomingByte (8 * (k + 2))) = false) →
    callGate Config.sequencing s = .next { s.afterReads (s.haltedShape k) (k + 3) with
      gate := .gateFatal
      error := if debugLocked (s.upcomingByte (8 * (k + 2))) then .debugLocked else .haltVerificationFailed
      status := s.upcomingByte (8 * (k + 2))
      haltResp := s.upcomingByte (8 * (k + 1))
      oscPolls := BitVec.ofNat 6 k
      warnFamily := s.warnFamily || familyMismatch Config.expectedFamily s.chipId
      held := { s.held with req := 0, resp := 1, status := true, haltResp := true } }

/-- The whole law of the gating: it always ends, Approved with `extract_ok` or GateFatal without, and it is Approved
iff the status bytes the target presents pass lock, oscillator and halt in that order (R185, R188, R192). -/
def Obligations.GateOutcomeLaw : Prop :=
  ∀ s : State, s.session = .opened → s.link.clk = false → s.seq = .verified → s.gate = .gateIdle →
    s.error = .none → s.extractOk = false →
    ∃ t, callGate Config.sequencing s = .next t ∧ t.seq = .verified ∧
      ((t.gate = .approved ∧ t.extractOk = true ∧ t.error = .none) ∨
        (t.gate = .gateFatal ∧ t.extractOk = false ∧
          (t.error = .debugLocked ∨ t.error = .oscillatorUnstable ∨ t.error = .haltVerificationFailed))) ∧
      (t.extractOk = true ↔ ∃ k, k ≤ 50 ∧ s.stableAfter k ∧
        debugLocked (s.upcomingByte (8 * (k + 2))) = false ∧ cpuHalted (s.upcomingByte (8 * (k + 2))) = true)

/-- R194: refused unless Verified, GateIdle and no error; a second gating among the refused, and for good: no step but a
reset of the block brings `gate` back to GateIdle, or from one of its ends to another. -/
def Obligations.GateOnlyOnceFromVerified : Prop :=
  (∀ s : State, s.session = .opened → (s.seq ≠ .verified ∨ s.gate ≠ .gateIdle ∨ s.error ≠ .none) →
    callGate Config.sequencing s = .refused .gateNotReady) ∧
  (∀ s t : State, callGate Config.sequencing s = .next t → callGate Config.sequencing t = .refused .gateNotReady) ∧
  ∀ s t : State, step s = .next t → s.gate ≠ .gateIdle → (∀ rest, s.calls ≠ .reset :: rest) →
    t.gate = s.gate ∧ ∀ u, callGate Config.sequencing t ≠ .next u

/-- R186: the expected family changes `warn_family` and nothing else. -/
def Obligations.FamilyCheckOnlyWarns : Prop :=
  ∀ (s t : State) (p : Config.Sequencing) (other : Byte), callGate p s = .next t →
    t.warnFamily = (s.warnFamily || decide (s.chipId.extractLsb' 8 8 ≠ p.expectedFamily)) ∧
    callGate { p with expectedFamily := other } s =
      .next { t with warnFamily := s.warnFamily || decide (s.chipId.extractLsb' 8 8 ≠ other) }

/-- R193 and the rest of what `gate` leaves alone: `state`, the attach registers, the reset line, the buffers it does
not use. -/
def Obligations.GateFrame : Prop :=
  ∀ (s t : State), callGate Config.sequencing s = .next t →
    t.seq = s.seq ∧ t.session = s.session ∧ t.attempts = s.attempts ∧ t.chipId = s.chipId ∧ t.req0 = s.req0 ∧
      t.req1 = s.req1 ∧ t.req2 = s.req2 ∧ t.resp1 = s.resp1 ∧ t.held.chipId = s.held.chipId ∧
      t.answers = s.answers ∧ t.calls = s.calls ∧ t.link.resetN = s.link.resetN ∧ t.link.clk = false ∧
      t.link.dataDir = .inp ∧ (∃ evs, t.trace = s.trace ++ evs)

/-- R195: the gating puts nothing on the wire but READ_STATUS and HALT exchanges and the poll waits: 1 to 52 status
reads, at most one HALT. -/
def Obligations.GateExchangeBudget : Prop :=
  ∀ s t : State, callGate Config.sequencing s = .next t →
    ∃ (evs : List Event) (sent : List Byte),
      t.trace = s.trace ++ evs ∧ latched s.link evs = sent.flatMap bitsMsbFirst ∧
      (∀ b ∈ sent, b = 0x34 ∨ b = 0x44) ∧ 1 ≤ sent.count 0x34 ∧ sent.count 0x34 ≤ 52 ∧ sent.count 0x44 ≤ 1 ∧
      (∀ v, .rst v ∉ evs) ∧ evs.count (.wait .tPoll) ≤ 50

/-- A dead link (the assumption R83 adopted), stuck at either level for as long as an operation can sample it: every
attach ends in LinkAbsent, and, where it died after Verified, R237's two examples: stuck high reports DebugLocked, stuck
low OscillatorUnstable after 50 polls. In the rule's general case, one byte echoed for every response, an attach fails
on 0x00 and 0xFF alone and takes any other echo for an identity, and every command hands the echo to its caller. -/
def Obligations.DeadLinkOutcomes : Prop :=
  (∀ (s : State) (level : Bit), s.session = .opened → s.link.clk = false → s.error = .none →
    s.DeadLink level (8 * 51) →
    (s.seq = .idle → s.attempts = 0 → ∃ t, callAttach Config.sequencing s = .next t ∧ t.seq = .failed ∧
      t.error = .linkAbsent ∧ t.chipId = (if level then 0xFFFF else 0x0000)) ∧
    (s.seq = .verified → s.gate = .gateIdle → ∃ t, callGate Config.sequencing s = .next t ∧ t.gate = .gateFatal ∧
      t.extractOk = s.extractOk ∧ t.error = (if level then .debugLocked else .oscillatorUnstable) ∧
      (level = false → t.oscPolls = 50 ∧ t.status = 0x00) ∧ (level = true → t.status = 0xFF))) ∧
  ∀ (s : State) (b : Byte), s.session = .opened → s.link.clk = false → s.EchoLink b 6 →
    (s.seq = .idle → s.attempts = 0 → s.error = .none → ∃ t, callAttach Config.sequencing s = .next t ∧
      t.chipId = joinBytes b b ∧
      if b = 0x00 ∨ b = 0xFF then t.seq = .failed ∧ t.error = .linkAbsent ∧ t.attempts = 3
      else t.seq = .verified ∧ t.error = .none ∧ t.attempts = 1) ∧
    ∀ i : Instr, ∃ t, exec i s = .next t ∧ t.returned = .bytes (List.replicate i.record.nresp.val b)

/-! ### Errors -/

/-- R236 and R230: `raise Fatal` writes `error` once and touches nothing else, no pin among it; the register is sticky;
and nothing but `attach` and `gate` ends fatal, each with its own codes. -/
def Obligations.FatalIsSticky : Prop :=
  (∀ (s : State) (code : ErrorCode), raiseFatal code s =
    { s with error := if s.error = .none then code else s.error }) ∧
  (∀ s t : State, step s = .next t → s.error ≠ .none → (∀ rest, s.calls ≠ .reset :: rest) → t.error = s.error) ∧
  ∀ s t : State, step s = .next t → s.error = .none → t.error ≠ .none →
    (t.error = .linkAbsent ∧ ∃ rest, s.calls = .attach :: rest) ∨
      ((t.error = .debugLocked ∨ t.error = .oscillatorUnstable ∨ t.error = .haltVerificationFailed) ∧
        ∃ rest, s.calls = .gate :: rest)

/-- After a fatal end every operation of the sequencer is refused (R236, R240), in every state the registers'
invariant admits. -/
def Obligations.FatalEndStopsTheSequencer : Prop :=
  ∀ s : State, RegistersConsistent s → s.error ≠ .none →
    callAttach Config.sequencing s = .refused .attachNotIdle ∧
    callGate Config.sequencing s = .refused .gateNotReady

/-! ### Invariants -/

/-- Every step keeps the registers' invariant: R48 to R50, R29, R30, R35 to R37. -/
def Obligations.StepKeepsRegistersConsistent : Prop :=
  ∀ s t : State, RegistersConsistent s → step s = .next t → RegistersConsistent t

/-- Both invariants hold after reset. -/
def Obligations.InvariantsHoldAtReset : Prop := RegistersConsistent State.reset ∧ WireConsistent State.reset

/-- Every step keeps the wire's invariant with the pins at rest: the trace leads to the pins' levels, every event stands
where it may, every reset window held exactly two rising edges, CLK is low and reset released. -/
def Obligations.StepKeepsWireConsistent : Prop :=
  ∀ s t : State, LinkAtRest s → WireConsistent s → step s = .next t → LinkAtRest t ∧ WireConsistent t

/-- R37, R49: after every step from a state the invariant admits, `extract_ok` is 1 exactly when `gate` is Approved,
code reads, `read_code_byte` or a client's own DEBUG_INSTR_1 93 (the model's choice, log 22), are allowed exactly then,
and then the registers show a verified, unlocked and halted target. -/
def Obligations.ApprovalMeansVerifiedAndHalted : Prop :=
  ∀ s t : State, RegistersConsistent s → step s = .next t →
    (t.extractOk = true ↔ t.gate = .approved) ∧
    (∀ i, i = .readCodeByte ∨ i = .debugInstr1 0x93 → (allowsRead t i = true ↔ t.gate = .approved)) ∧
    (t.extractOk = true → t.seq = .verified ∧ t.error = .none ∧ identityValid t.chipId = true ∧
      debugLocked t.status = false ∧ cpuHalted t.status = true)

/-- `extract_ok` becomes 1 only in a step that runs `gate`, and only if no status byte read by it showed the lock
(R188, R192). -/
def Obligations.OnlyAnUnlockedGatingApproves : Prop :=
  ∀ s t : State, step s = .next t → s.extractOk = false → t.extractOk = true →
    (∃ rest, s.calls = .gate :: rest) ∧ t.gate = .approved ∧
    ∃ k, k ≤ 50 ∧ (∀ j, j ≤ k → debugLocked (s.upcomingByte (8 * j)) = false) ∧
      oscillatorStable (s.upcomingByte (8 * k)) = true ∧ debugLocked (s.upcomingByte (8 * (k + 2))) = false ∧
      cpuHalted (s.upcomingByte (8 * (k + 2))) = true

/-- R48, third part: the line stays IN under a client that invokes only `attach`, `gate` and exchanges; an exchange
brings it back to IN from any direction. -/
def Obligations.LineIsInBetweenExchanges : Prop :=
  (∀ (s t : State) (c : Call) (rest : List Call), s.calls = c :: rest →
    (c = .attach ∨ c = .gate ∨ (∃ op req, c = .exchange op req) ∨ (∃ p, c = .remote p)) →
    step s = .next t → t.link.dataDir = .inp) ∧
  ∀ s t : State, step s = .next t → (∀ d rest, s.calls ≠ .setDir d :: rest) → s.link.dataDir = .inp →
    t.link.dataDir = .inp

/-- The trace only grows, and its new SAMPLE events are, in order, the answers the target had for exactly the samples
taken (R12, R75, R80); only a reset of the block empties it. -/
def Obligations.TraceRecordsEverySample : Prop :=
  ∀ s t : State, step s = .next t → (∀ rest, s.calls ≠ .reset :: rest) →
    ∃ evs, t.trace = s.trace ++ evs ∧ t.answers = s.answers ∧
      sampled evs = (List.range (t.samples - s.samples)).map s.upcoming ∧ s.samples ≤ t.samples

/-- R276: `extract_ok` records the outcome of the gating and is not updated afterwards: any other call but a reset leaves
it, also one that changes what the gating verified. -/
def Obligations.ExtractOkIsNotUpdated : Prop :=
  ∀ s t : State, step s = .next t → (∀ rest, s.calls ≠ .gate :: rest ∧ s.calls ≠ .reset :: rest) →
    t.extractOk = s.extractOk ∧ ∀ i, allowsRead t i = allowsRead s i

/-! ### The boundary -/

/-- Under the environment contract (R86, R211 to R213, R216 adopted as assumptions): `set_pointer`, `clear_accumulator`,
`read_code_byte`, each executed by an unlocked target, hand back the code byte at an address of the flash, and at any
address the accumulator the target ends with; the same bytes shipped by DEBUG_INSTR commands are answered as R155 and
R156 give it, 0x00 to a clear and the immediate to a load. That the flash reads as one function of the address is an
inference (log 23); nothing is assumed of addresses outside it. That each target executes what it is sent, whatever
condition it is in, is the model's choice of contract (R154 leaves running, locked and normal boot open, log 23). -/
def Obligations.CodeByteReadUnderContract : Prop :=
  ∀ (s : State) (addr : Half) (imm : Byte) (code : Nat → Byte), s.session = .opened → s.link.clk = false →
    (∃ s1 s2 s3, exec (.setPointer addr) s = .next s1 ∧ exec .clearAccumulator s1 = .next s2 ∧
      exec .readCodeByte s2 = .next s3 ∧
      ∀ t0 t1 t2 t3 : Target, t2.locked = false →
        Target.Executes code t0 t1 (.setPointer addr) s1.resp0 →
        Target.Executes code t1 t2 .clearAccumulator s2.resp0 →
        Target.Executes code t2 t3 .readCodeByte s3.resp0 →
        s3.returned = .bytes [t3.acc] ∧ (addr.toNat < flashSize → s3.returned = .bytes [code addr.toNat])) ∧
    (∃ s1, exec (.debugInstr1 0xE4) s = .next s1 ∧
      ∀ t t' : Target, Target.Executes code t t' (.debugInstr1 0xE4) s1.resp0 → s1.returned = .bytes [0x00]) ∧
    ∃ s1, exec (.debugInstr2 0x74 imm) s = .next s1 ∧
      ∀ t t' : Target, Target.Executes code t t' (.debugInstr2 0x74 imm) s1.resp0 → s1.returned = .bytes [imm]

/-- R218: the exchanges and pulses of reading a block, the worked counts, and that every code read stands immediately
after a clear. -/
def Obligations.BlockReadCounts : Prop :=
  (∀ (start : Half) (size : Nat), 1 ≤ size →
    (blockRead start size).length = 3 * size ∧
    ((blockRead start size).map fun i => 8 * ((wireBytes i).length + 1)).sum = 40 + 24 * (3 * size - 1) ∧
    (blockRead start size).count .readCodeByte = size ∧
    (blockRead start size).count (.setPointer start) = 1 ∧
    readsAfterClears (blockRead start size) = true) ∧
  3 * blockSize = 192 ∧ 40 + 24 * (3 * blockSize - 1) = 4624 ∧ flashSize / blockSize = 512 ∧
  512 * 192 = 98304 ∧ 512 * 4624 = 2367488
end

