-- ==== Sys2Proof/Laws/State.lean ====
section
/-! SUPPORT. One lemma per field per update of the state: what each named update does to each field. -/

namespace Sys2Proof.Machine

variable (s : State)

/-! ### `emit` -/

@[simp] theorem emit_session (e : Event) : (emit e s).session = s.session := rfl
@[simp] theorem emit_link (e : Event) : (emit e s).link = s.link := rfl
@[simp] theorem emit_req0 (e : Event) : (emit e s).req0 = s.req0 := rfl
@[simp] theorem emit_req1 (e : Event) : (emit e s).req1 = s.req1 := rfl
@[simp] theorem emit_req2 (e : Event) : (emit e s).req2 = s.req2 := rfl
@[simp] theorem emit_resp0 (e : Event) : (emit e s).resp0 = s.resp0 := rfl
@[simp] theorem emit_resp1 (e : Event) : (emit e s).resp1 = s.resp1 := rfl
@[simp] theorem emit_seq (e : Event) : (emit e s).seq = s.seq := rfl
@[simp] theorem emit_attempts (e : Event) : (emit e s).attempts = s.attempts := rfl
@[simp] theorem emit_chipId (e : Event) : (emit e s).chipId = s.chipId := rfl
@[simp] theorem emit_status (e : Event) : (emit e s).status = s.status := rfl
@[simp] theorem emit_error (e : Event) : (emit e s).error = s.error := rfl
@[simp] theorem emit_warnFamily (e : Event) : (emit e s).warnFamily = s.warnFamily := rfl
@[simp] theorem emit_gate (e : Event) : (emit e s).gate = s.gate := rfl
@[simp] theorem emit_oscPolls (e : Event) : (emit e s).oscPolls = s.oscPolls := rfl
@[simp] theorem emit_extractOk (e : Event) : (emit e s).extractOk = s.extractOk := rfl
@[simp] theorem emit_haltResp (e : Event) : (emit e s).haltResp = s.haltResp := rfl
@[simp] theorem emit_trace (e : Event) : (emit e s).trace = s.trace ++ [e] := rfl
@[simp] theorem emit_held (e : Event) : (emit e s).held = s.held := rfl
@[simp] theorem emit_answers (e : Event) : (emit e s).answers = s.answers := rfl
@[simp] theorem emit_samples (e : Event) : (emit e s).samples = s.samples := rfl
@[simp] theorem emit_calls (e : Event) : (emit e s).calls = s.calls := rfl
@[simp] theorem emit_returned (e : Event) : (emit e s).returned = s.returned := rfl

/-! ### `driveClk` -/

@[simp] theorem driveClk_session (v : Bit) : (driveClk v s).session = s.session := rfl
@[simp] theorem driveClk_link (v : Bit) : (driveClk v s).link = { s.link with clk := v } := rfl
@[simp] theorem driveClk_req0 (v : Bit) : (driveClk v s).req0 = s.req0 := rfl
@[simp] theorem driveClk_req1 (v : Bit) : (driveClk v s).req1 = s.req1 := rfl
@[simp] theorem driveClk_req2 (v : Bit) : (driveClk v s).req2 = s.req2 := rfl
@[simp] theorem driveClk_resp0 (v : Bit) : (driveClk v s).resp0 = s.resp0 := rfl
@[simp] theorem driveClk_resp1 (v : Bit) : (driveClk v s).resp1 = s.resp1 := rfl
@[simp] theorem driveClk_seq (v : Bit) : (driveClk v s).seq = s.seq := rfl
@[simp] theorem driveClk_attempts (v : Bit) : (driveClk v s).attempts = s.attempts := rfl
@[simp] theorem driveClk_chipId (v : Bit) : (driveClk v s).chipId = s.chipId := rfl
@[simp] theorem driveClk_status (v : Bit) : (driveClk v s).status = s.status := rfl
@[simp] theorem driveClk_error (v : Bit) : (driveClk v s).error = s.error := rfl
@[simp] theorem driveClk_warnFamily (v : Bit) : (driveClk v s).warnFamily = s.warnFamily := rfl
@[simp] theorem driveClk_gate (v : Bit) : (driveClk v s).gate = s.gate := rfl
@[simp] theorem driveClk_oscPolls (v : Bit) : (driveClk v s).oscPolls = s.oscPolls := rfl
@[simp] theorem driveClk_extractOk (v : Bit) : (driveClk v s).extractOk = s.extractOk := rfl
@[simp] theorem driveClk_haltResp (v : Bit) : (driveClk v s).haltResp = s.haltResp := rfl
@[simp] theorem driveClk_trace (v : Bit) : (driveClk v s).trace = s.trace ++ [.clk v] := rfl
@[simp] theorem driveClk_held (v : Bit) : (driveClk v s).held = s.held := rfl
@[simp] theorem driveClk_answers (v : Bit) : (driveClk v s).answers = s.answers := rfl
@[simp] theorem driveClk_samples (v : Bit) : (driveClk v s).samples = s.samples := rfl
@[simp] theorem driveClk_calls (v : Bit) : (driveClk v s).calls = s.calls := rfl
@[simp] theorem driveClk_returned (v : Bit) : (driveClk v s).returned = s.returned := rfl

/-! ### `driveData` -/

@[simp] theorem driveData_session (v : Bit) : (driveData v s).session = s.session := rfl
@[simp] theorem driveData_link (v : Bit) : (driveData v s).link = { s.link with dataOut := v } := rfl
@[simp] theorem driveData_req0 (v : Bit) : (driveData v s).req0 = s.req0 := rfl
@[simp] theorem driveData_req1 (v : Bit) : (driveData v s).req1 = s.req1 := rfl
@[simp] theorem driveData_req2 (v : Bit) : (driveData v s).req2 = s.req2 := rfl
@[simp] theorem driveData_resp0 (v : Bit) : (driveData v s).resp0 = s.resp0 := rfl
@[simp] theorem driveData_resp1 (v : Bit) : (driveData v s).resp1 = s.resp1 := rfl
@[simp] theorem driveData_seq (v : Bit) : (driveData v s).seq = s.seq := rfl
@[simp] theorem driveData_attempts (v : Bit) : (driveData v s).attempts = s.attempts := rfl
@[simp] theorem driveData_chipId (v : Bit) : (driveData v s).chipId = s.chipId := rfl
@[simp] theorem driveData_status (v : Bit) : (driveData v s).status = s.status := rfl
@[simp] theorem driveData_error (v : Bit) : (driveData v s).error = s.error := rfl
@[simp] theorem driveData_warnFamily (v : Bit) : (driveData v s).warnFamily = s.warnFamily := rfl
@[simp] theorem driveData_gate (v : Bit) : (driveData v s).gate = s.gate := rfl
@[simp] theorem driveData_oscPolls (v : Bit) : (driveData v s).oscPolls = s.oscPolls := rfl
@[simp] theorem driveData_extractOk (v : Bit) : (driveData v s).extractOk = s.extractOk := rfl
@[simp] theorem driveData_haltResp (v : Bit) : (driveData v s).haltResp = s.haltResp := rfl
@[simp] theorem driveData_trace (v : Bit) : (driveData v s).trace = s.trace ++ [.data v] := rfl
@[simp] theorem driveData_held (v : Bit) : (driveData v s).held = s.held := rfl
@[simp] theorem driveData_answers (v : Bit) : (driveData v s).answers = s.answers := rfl
@[simp] theorem driveData_samples (v : Bit) : (driveData v s).samples = s.samples := rfl
@[simp] theorem driveData_calls (v : Bit) : (driveData v s).calls = s.calls := rfl
@[simp] theorem driveData_returned (v : Bit) : (driveData v s).returned = s.returned := rfl

/-! ### `setDirRaw` -/

@[simp] theorem setDirRaw_session (d : Dir) : (setDirRaw d s).session = s.session := rfl
@[simp] theorem setDirRaw_link (d : Dir) : (setDirRaw d s).link = { s.link with dataDir := d } := rfl
@[simp] theorem setDirRaw_req0 (d : Dir) : (setDirRaw d s).req0 = s.req0 := rfl
@[simp] theorem setDirRaw_req1 (d : Dir) : (setDirRaw d s).req1 = s.req1 := rfl
@[simp] theorem setDirRaw_req2 (d : Dir) : (setDirRaw d s).req2 = s.req2 := rfl
@[simp] theorem setDirRaw_resp0 (d : Dir) : (setDirRaw d s).resp0 = s.resp0 := rfl
@[simp] theorem setDirRaw_resp1 (d : Dir) : (setDirRaw d s).resp1 = s.resp1 := rfl
@[simp] theorem setDirRaw_seq (d : Dir) : (setDirRaw d s).seq = s.seq := rfl
@[simp] theorem setDirRaw_attempts (d : Dir) : (setDirRaw d s).attempts = s.attempts := rfl
@[simp] theorem setDirRaw_chipId (d : Dir) : (setDirRaw d s).chipId = s.chipId := rfl
@[simp] theorem setDirRaw_status (d : Dir) : (setDirRaw d s).status = s.status := rfl
@[simp] theorem setDirRaw_error (d : Dir) : (setDirRaw d s).error = s.error := rfl
@[simp] theorem setDirRaw_warnFamily (d : Dir) : (setDirRaw d s).warnFamily = s.warnFamily := rfl
@[simp] theorem setDirRaw_gate (d : Dir) : (setDirRaw d s).gate = s.gate := rfl
@[simp] theorem setDirRaw_oscPolls (d : Dir) : (setDirRaw d s).oscPolls = s.oscPolls := rfl
@[simp] theorem setDirRaw_extractOk (d : Dir) : (setDirRaw d s).extractOk = s.extractOk := rfl
@[simp] theorem setDirRaw_haltResp (d : Dir) : (setDirRaw d s).haltResp = s.haltResp := rfl
@[simp] theorem setDirRaw_trace (d : Dir) : (setDirRaw d s).trace = s.trace ++ [.dir d] := rfl
@[simp] theorem setDirRaw_held (d : Dir) : (setDirRaw d s).held = s.held := rfl
@[simp] theorem setDirRaw_answers (d : Dir) : (setDirRaw d s).answers = s.answers := rfl
@[simp] theorem setDirRaw_samples (d : Dir) : (setDirRaw d s).samples = s.samples := rfl
@[simp] theorem setDirRaw_calls (d : Dir) : (setDirRaw d s).calls = s.calls := rfl
@[simp] theorem setDirRaw_returned (d : Dir) : (setDirRaw d s).returned = s.returned := rfl

/-! ### `driveReset` -/

@[simp] theorem driveReset_session (v : Bit) : (driveReset v s).session = s.session := rfl
@[simp] theorem driveReset_link (v : Bit) : (driveReset v s).link = { s.link with resetN := v } := rfl
@[simp] theorem driveReset_req0 (v : Bit) : (driveReset v s).req0 = s.req0 := rfl
@[simp] theorem driveReset_req1 (v : Bit) : (driveReset v s).req1 = s.req1 := rfl
@[simp] theorem driveReset_req2 (v : Bit) : (driveReset v s).req2 = s.req2 := rfl
@[simp] theorem driveReset_resp0 (v : Bit) : (driveReset v s).resp0 = s.resp0 := rfl
@[simp] theorem driveReset_resp1 (v : Bit) : (driveReset v s).resp1 = s.resp1 := rfl
@[simp] theorem driveReset_seq (v : Bit) : (driveReset v s).seq = s.seq := rfl
@[simp] theorem driveReset_attempts (v : Bit) : (driveReset v s).attempts = s.attempts := rfl
@[simp] theorem driveReset_chipId (v : Bit) : (driveReset v s).chipId = s.chipId := rfl
@[simp] theorem driveReset_status (v : Bit) : (driveReset v s).status = s.status := rfl
@[simp] theorem driveReset_error (v : Bit) : (driveReset v s).error = s.error := rfl
@[simp] theorem driveReset_warnFamily (v : Bit) : (driveReset v s).warnFamily = s.warnFamily := rfl
@[simp] theorem driveReset_gate (v : Bit) : (driveReset v s).gate = s.gate := rfl
@[simp] theorem driveReset_oscPolls (v : Bit) : (driveReset v s).oscPolls = s.oscPolls := rfl
@[simp] theorem driveReset_extractOk (v : Bit) : (driveReset v s).extractOk = s.extractOk := rfl
@[simp] theorem driveReset_haltResp (v : Bit) : (driveReset v s).haltResp = s.haltResp := rfl
@[simp] theorem driveReset_trace (v : Bit) : (driveReset v s).trace = s.trace ++ [.rst v] := rfl
@[simp] theorem driveReset_held (v : Bit) : (driveReset v s).held = s.held := rfl
@[simp] theorem driveReset_answers (v : Bit) : (driveReset v s).answers = s.answers := rfl
@[simp] theorem driveReset_samples (v : Bit) : (driveReset v s).samples = s.samples := rfl
@[simp] theorem driveReset_calls (v : Bit) : (driveReset v s).calls = s.calls := rfl
@[simp] theorem driveReset_returned (v : Bit) : (driveReset v s).returned = s.returned := rfl

/-! ### `wait` -/

@[simp] theorem wait_session (t : Delay) : (wait t s).session = s.session := rfl
@[simp] theorem wait_link (t : Delay) : (wait t s).link = s.link := rfl
@[simp] theorem wait_req0 (t : Delay) : (wait t s).req0 = s.req0 := rfl
@[simp] theorem wait_req1 (t : Delay) : (wait t s).req1 = s.req1 := rfl
@[simp] theorem wait_req2 (t : Delay) : (wait t s).req2 = s.req2 := rfl
@[simp] theorem wait_resp0 (t : Delay) : (wait t s).resp0 = s.resp0 := rfl
@[simp] theorem wait_resp1 (t : Delay) : (wait t s).resp1 = s.resp1 := rfl
@[simp] theorem wait_seq (t : Delay) : (wait t s).seq = s.seq := rfl
@[simp] theorem wait_attempts (t : Delay) : (wait t s).attempts = s.attempts := rfl
@[simp] theorem wait_chipId (t : Delay) : (wait t s).chipId = s.chipId := rfl
@[simp] theorem wait_status (t : Delay) : (wait t s).status = s.status := rfl
@[simp] theorem wait_error (t : Delay) : (wait t s).error = s.error := rfl
@[simp] theorem wait_warnFamily (t : Delay) : (wait t s).warnFamily = s.warnFamily := rfl
@[simp] theorem wait_gate (t : Delay) : (wait t s).gate = s.gate := rfl
@[simp] theorem wait_oscPolls (t : Delay) : (wait t s).oscPolls = s.oscPolls := rfl
@[simp] theorem wait_extractOk (t : Delay) : (wait t s).extractOk = s.extractOk := rfl
@[simp] theorem wait_haltResp (t : Delay) : (wait t s).haltResp = s.haltResp := rfl
@[simp] theorem wait_trace (t : Delay) : (wait t s).trace = s.trace ++ [.wait t] := rfl
@[simp] theorem wait_held (t : Delay) : (wait t s).held = s.held := rfl
@[simp] theorem wait_answers (t : Delay) : (wait t s).answers = s.answers := rfl
@[simp] theorem wait_samples (t : Delay) : (wait t s).samples = s.samples := rfl
@[simp] theorem wait_calls (t : Delay) : (wait t s).calls = s.calls := rfl
@[simp] theorem wait_returned (t : Delay) : (wait t s).returned = s.returned := rfl

/-! ### `sample_snd` -/

@[simp] theorem sample_snd_session : (sample s).2.session = s.session := rfl
@[simp] theorem sample_snd_link : (sample s).2.link = s.link := rfl
@[simp] theorem sample_snd_req0 : (sample s).2.req0 = s.req0 := rfl
@[simp] theorem sample_snd_req1 : (sample s).2.req1 = s.req1 := rfl
@[simp] theorem sample_snd_req2 : (sample s).2.req2 = s.req2 := rfl
@[simp] theorem sample_snd_resp0 : (sample s).2.resp0 = s.resp0 := rfl
@[simp] theorem sample_snd_resp1 : (sample s).2.resp1 = s.resp1 := rfl
@[simp] theorem sample_snd_seq : (sample s).2.seq = s.seq := rfl
@[simp] theorem sample_snd_attempts : (sample s).2.attempts = s.attempts := rfl
@[simp] theorem sample_snd_chipId : (sample s).2.chipId = s.chipId := rfl
@[simp] theorem sample_snd_status : (sample s).2.status = s.status := rfl
@[simp] theorem sample_snd_error : (sample s).2.error = s.error := rfl
@[simp] theorem sample_snd_warnFamily : (sample s).2.warnFamily = s.warnFamily := rfl
@[simp] theorem sample_snd_gate : (sample s).2.gate = s.gate := rfl
@[simp] theorem sample_snd_oscPolls : (sample s).2.oscPolls = s.oscPolls := rfl
@[simp] theorem sample_snd_extractOk : (sample s).2.extractOk = s.extractOk := rfl
@[simp] theorem sample_snd_haltResp : (sample s).2.haltResp = s.haltResp := rfl
@[simp] theorem sample_snd_trace : (sample s).2.trace = s.trace ++ [.sample (s.upcoming 0)] := rfl
@[simp] theorem sample_snd_held : (sample s).2.held = s.held := rfl
@[simp] theorem sample_snd_answers : (sample s).2.answers = s.answers := rfl
@[simp] theorem sample_snd_samples : (sample s).2.samples = s.samples + 1 := rfl
@[simp] theorem sample_snd_calls : (sample s).2.calls = s.calls := rfl
@[simp] theorem sample_snd_returned : (sample s).2.returned = s.returned := rfl

/-! ### `onWire` -/

@[simp] theorem onWire_session (l : Link) (evs : List Event) (n : Nat) : (s.onWire l evs n).session = s.session := rfl
@[simp] theorem onWire_link (l : Link) (evs : List Event) (n : Nat) : (s.onWire l evs n).link = l := rfl
@[simp] theorem onWire_req0 (l : Link) (evs : List Event) (n : Nat) : (s.onWire l evs n).req0 = s.req0 := rfl
@[simp] theorem onWire_req1 (l : Link) (evs : List Event) (n : Nat) : (s.onWire l evs n).req1 = s.req1 := rfl
@[simp] theorem onWire_req2 (l : Link) (evs : List Event) (n : Nat) : (s.onWire l evs n).req2 = s.req2 := rfl
@[simp] theorem onWire_resp0 (l : Link) (evs : List Event) (n : Nat) : (s.onWire l evs n).resp0 = s.resp0 := rfl
@[simp] theorem onWire_resp1 (l : Link) (evs : List Event) (n : Nat) : (s.onWire l evs n).resp1 = s.resp1 := rfl
@[simp] theorem onWire_seq (l : Link) (evs : List Event) (n : Nat) : (s.onWire l evs n).seq = s.seq := rfl
@[simp] theorem onWire_attempts (l : Link) (evs : List Event) (n : Nat) : (s.onWire l evs n).attempts = s.attempts := rfl
@[simp] theorem onWire_chipId (l : Link) (evs : List Event) (n : Nat) : (s.onWire l evs n).chipId = s.chipId := rfl
@[simp] theorem onWire_status (l : Link) (evs : List Event) (n : Nat) : (s.onWire l evs n).status = s.status := rfl
@[simp] theorem onWire_error (l : Link) (evs : List Event) (n : Nat) : (s.onWire l evs n).error = s.error := rfl
@[simp] theorem onWire_warnFamily (l : Link) (evs : List Event) (n : Nat) : (s.onWire l evs n).warnFamily = s.warnFamily := rfl
@[simp] theorem onWire_gate (l : Link) (evs : List Event) (n : Nat) : (s.onWire l evs n).gate = s.gate := rfl
@[simp] theorem onWire_oscPolls (l : Link) (evs : List Event) (n : Nat) : (s.onWire l evs n).oscPolls = s.oscPolls := rfl
@[simp] theorem onWire_extractOk (l : Link) (evs : List Event) (n : Nat) : (s.onWire l evs n).extractOk = s.extractOk := rfl
@[simp] theorem onWire_haltResp (l : Link) (evs : List Event) (n : Nat) : (s.onWire l evs n).haltResp = s.haltResp := rfl
@[simp] theorem onWire_trace (l : Link) (evs : List Event) (n : Nat) : (s.onWire l evs n).trace = s.trace ++ evs := rfl
@[simp] theorem onWire_held (l : Link) (evs : List Event) (n : Nat) : (s.onWire l evs n).held = s.held := rfl
@[simp] theorem onWire_answers (l : Link) (evs : List Event) (n : Nat) : (s.onWire l evs n).answers = s.answers := rfl
@[simp] theorem onWire_samples (l : Link) (evs : List Event) (n : Nat) : (s.onWire l evs n).samples = s.samples + n := rfl
@[simp] theorem onWire_calls (l : Link) (evs : List Event) (n : Nat) : (s.onWire l evs n).calls = s.calls := rfl
@[simp] theorem onWire_returned (l : Link) (evs : List Event) (n : Nat) : (s.onWire l evs n).returned = s.returned := rfl

/-! ### `raiseFatal` -/

@[simp] theorem raiseFatal_session (c : ErrorCode) : (raiseFatal c s).session = s.session := rfl
@[simp] theorem raiseFatal_link (c : ErrorCode) : (raiseFatal c s).link = s.link := rfl
@[simp] theorem raiseFatal_req0 (c : ErrorCode) : (raiseFatal c s).req0 = s.req0 := rfl
@[simp] theorem raiseFatal_req1 (c : ErrorCode) : (raiseFatal c s).req1 = s.req1 := rfl
@[simp] theorem raiseFatal_req2 (c : ErrorCode) : (raiseFatal c s).req2 = s.req2 := rfl
@[simp] theorem raiseFatal_resp0 (c : ErrorCode) : (raiseFatal c s).resp0 = s.resp0 := rfl
@[simp] theorem raiseFatal_resp1 (c : ErrorCode) : (raiseFatal c s).resp1 = s.resp1 := rfl
@[simp] theorem raiseFatal_seq (c : ErrorCode) : (raiseFatal c s).seq = s.seq := rfl
@[simp] theorem raiseFatal_attempts (c : ErrorCode) : (raiseFatal c s).attempts = s.attempts := rfl
@[simp] theorem raiseFatal_chipId (c : ErrorCode) : (raiseFatal c s).chipId = s.chipId := rfl
@[simp] theorem raiseFatal_status (c : ErrorCode) : (raiseFatal c s).status = s.status := rfl
@[simp] theorem raiseFatal_error (c : ErrorCode) : (raiseFatal c s).error = if s.error = .none then c else s.error := rfl
@[simp] theorem raiseFatal_warnFamily (c : ErrorCode) : (raiseFatal c s).warnFamily = s.warnFamily := rfl
@[simp] theorem raiseFatal_gate (c : ErrorCode) : (raiseFatal c s).gate = s.gate := rfl
@[simp] theorem raiseFatal_oscPolls (c : ErrorCode) : (raiseFatal c s).oscPolls = s.oscPolls := rfl
@[simp] theorem raiseFatal_extractOk (c : ErrorCode) : (raiseFatal c s).extractOk = s.extractOk := rfl
@[simp] theorem raiseFatal_haltResp (c : ErrorCode) : (raiseFatal c s).haltResp = s.haltResp := rfl
@[simp] theorem raiseFatal_trace (c : ErrorCode) : (raiseFatal c s).trace = s.trace := rfl
@[simp] theorem raiseFatal_held (c : ErrorCode) : (raiseFatal c s).held = s.held := rfl
@[simp] theorem raiseFatal_answers (c : ErrorCode) : (raiseFatal c s).answers = s.answers := rfl
@[simp] theorem raiseFatal_samples (c : ErrorCode) : (raiseFatal c s).samples = s.samples := rfl
@[simp] theorem raiseFatal_calls (c : ErrorCode) : (raiseFatal c s).calls = s.calls := rfl
@[simp] theorem raiseFatal_returned (c : ErrorCode) : (raiseFatal c s).returned = s.returned := rfl

/-! ### `returning` -/

@[simp] theorem returning_session (r : Returned) : (returning r s).session = s.session := rfl
@[simp] theorem returning_link (r : Returned) : (returning r s).link = s.link := rfl
@[simp] theorem returning_req0 (r : Returned) : (returning r s).req0 = s.req0 := rfl
@[simp] theorem returning_req1 (r : Returned) : (returning r s).req1 = s.req1 := rfl
@[simp] theorem returning_req2 (r : Returned) : (returning r s).req2 = s.req2 := rfl
@[simp] theorem returning_resp0 (r : Returned) : (returning r s).resp0 = s.resp0 := rfl
@[simp] theorem returning_resp1 (r : Returned) : (returning r s).resp1 = s.resp1 := rfl
@[simp] theorem returning_seq (r : Returned) : (returning r s).seq = s.seq := rfl
@[simp] theorem returning_attempts (r : Returned) : (returning r s).attempts = s.attempts := rfl
@[simp] theorem returning_chipId (r : Returned) : (returning r s).chipId = s.chipId := rfl
@[simp] theorem returning_status (r : Returned) : (returning r s).status = s.status := rfl
@[simp] theorem returning_error (r : Returned) : (returning r s).error = s.error := rfl
@[simp] theorem returning_warnFamily (r : Returned) : (returning r s).warnFamily = s.warnFamily := rfl
@[simp] theorem returning_gate (r : Returned) : (returning r s).gate = s.gate := rfl
@[simp] theorem returning_oscPolls (r : Returned) : (returning r s).oscPolls = s.oscPolls := rfl
@[simp] theorem returning_extractOk (r : Returned) : (returning r s).extractOk = s.extractOk := rfl
@[simp] theorem returning_haltResp (r : Returned) : (returning r s).haltResp = s.haltResp := rfl
@[simp] theorem returning_trace (r : Returned) : (returning r s).trace = s.trace := rfl
@[simp] theorem returning_held (r : Returned) : (returning r s).held = s.held := rfl
@[simp] theorem returning_answers (r : Returned) : (returning r s).answers = s.answers := rfl
@[simp] theorem returning_samples (r : Returned) : (returning r s).samples = s.samples := rfl
@[simp] theorem returning_calls (r : Returned) : (returning r s).calls = s.calls := rfl
@[simp] theorem returning_returned (r : Returned) : (returning r s).returned = r := rfl

/-! ### `loadReq` -/

@[simp] theorem loadReq_session (req : List Byte) : (loadReq req s).session = s.session := rfl
@[simp] theorem loadReq_link (req : List Byte) : (loadReq req s).link = s.link := rfl
@[simp] theorem loadReq_req0 (req : List Byte) : (loadReq req s).req0 = req.getD 0 s.req0 := rfl
@[simp] theorem loadReq_req1 (req : List Byte) : (loadReq req s).req1 = req.getD 1 s.req1 := rfl
@[simp] theorem loadReq_req2 (req : List Byte) : (loadReq req s).req2 = req.getD 2 s.req2 := rfl
@[simp] theorem loadReq_resp0 (req : List Byte) : (loadReq req s).resp0 = s.resp0 := rfl
@[simp] theorem loadReq_resp1 (req : List Byte) : (loadReq req s).resp1 = s.resp1 := rfl
@[simp] theorem loadReq_seq (req : List Byte) : (loadReq req s).seq = s.seq := rfl
@[simp] theorem loadReq_attempts (req : List Byte) : (loadReq req s).attempts = s.attempts := rfl
@[simp] theorem loadReq_chipId (req : List Byte) : (loadReq req s).chipId = s.chipId := rfl
@[simp] theorem loadReq_status (req : List Byte) : (loadReq req s).status = s.status := rfl
@[simp] theorem loadReq_error (req : List Byte) : (loadReq req s).error = s.error := rfl
@[simp] theorem loadReq_warnFamily (req : List Byte) : (loadReq req s).warnFamily = s.warnFamily := rfl
@[simp] theorem loadReq_gate (req : List Byte) : (loadReq req s).gate = s.gate := rfl
@[simp] theorem loadReq_oscPolls (req : List Byte) : (loadReq req s).oscPolls = s.oscPolls := rfl
@[simp] theorem loadReq_extractOk (req : List Byte) : (loadReq req s).extractOk = s.extractOk := rfl
@[simp] theorem loadReq_haltResp (req : List Byte) : (loadReq req s).haltResp = s.haltResp := rfl
@[simp] theorem loadReq_trace (req : List Byte) : (loadReq req s).trace = s.trace := rfl
@[simp] theorem loadReq_held (req : List Byte) : (loadReq req s).held = s.held := rfl
@[simp] theorem loadReq_answers (req : List Byte) : (loadReq req s).answers = s.answers := rfl
@[simp] theorem loadReq_samples (req : List Byte) : (loadReq req s).samples = s.samples := rfl
@[simp] theorem loadReq_calls (req : List Byte) : (loadReq req s).calls = s.calls := rfl
@[simp] theorem loadReq_returned (req : List Byte) : (loadReq req s).returned = s.returned := rfl

/-! ### `setResp` -/

@[simp] theorem setResp_session (j : Nat) (x : Byte) : (setResp j x s).session = s.session := rfl
@[simp] theorem setResp_link (j : Nat) (x : Byte) : (setResp j x s).link = s.link := rfl
@[simp] theorem setResp_req0 (j : Nat) (x : Byte) : (setResp j x s).req0 = s.req0 := rfl
@[simp] theorem setResp_req1 (j : Nat) (x : Byte) : (setResp j x s).req1 = s.req1 := rfl
@[simp] theorem setResp_req2 (j : Nat) (x : Byte) : (setResp j x s).req2 = s.req2 := rfl
@[simp] theorem setResp_resp0 (j : Nat) (x : Byte) : (setResp j x s).resp0 = if j = 0 then x else s.resp0 := rfl
@[simp] theorem setResp_resp1 (j : Nat) (x : Byte) : (setResp j x s).resp1 = if j = 1 then x else s.resp1 := rfl
@[simp] theorem setResp_seq (j : Nat) (x : Byte) : (setResp j x s).seq = s.seq := rfl
@[simp] theorem setResp_attempts (j : Nat) (x : Byte) : (setResp j x s).attempts = s.attempts := rfl
@[simp] theorem setResp_chipId (j : Nat) (x : Byte) : (setResp j x s).chipId = s.chipId := rfl
@[simp] theorem setResp_status (j : Nat) (x : Byte) : (setResp j x s).status = s.status := rfl
@[simp] theorem setResp_error (j : Nat) (x : Byte) : (setResp j x s).error = s.error := rfl
@[simp] theorem setResp_warnFamily (j : Nat) (x : Byte) : (setResp j x s).warnFamily = s.warnFamily := rfl
@[simp] theorem setResp_gate (j : Nat) (x : Byte) : (setResp j x s).gate = s.gate := rfl
@[simp] theorem setResp_oscPolls (j : Nat) (x : Byte) : (setResp j x s).oscPolls = s.oscPolls := rfl
@[simp] theorem setResp_extractOk (j : Nat) (x : Byte) : (setResp j x s).extractOk = s.extractOk := rfl
@[simp] theorem setResp_haltResp (j : Nat) (x : Byte) : (setResp j x s).haltResp = s.haltResp := rfl
@[simp] theorem setResp_trace (j : Nat) (x : Byte) : (setResp j x s).trace = s.trace := rfl
@[simp] theorem setResp_held (j : Nat) (x : Byte) : (setResp j x s).held = s.held := rfl
@[simp] theorem setResp_answers (j : Nat) (x : Byte) : (setResp j x s).answers = s.answers := rfl
@[simp] theorem setResp_samples (j : Nat) (x : Byte) : (setResp j x s).samples = s.samples := rfl
@[simp] theorem setResp_calls (j : Nat) (x : Byte) : (setResp j x s).calls = s.calls := rfl
@[simp] theorem setResp_returned (j : Nat) (x : Byte) : (setResp j x s).returned = s.returned := rfl

/-! ### `noteExchange` -/

@[simp] theorem noteExchange_session (n m : Nat) : (noteExchange n m s).session = s.session := rfl
@[simp] theorem noteExchange_link (n m : Nat) : (noteExchange n m s).link = s.link := rfl
@[simp] theorem noteExchange_req0 (n m : Nat) : (noteExchange n m s).req0 = s.req0 := rfl
@[simp] theorem noteExchange_req1 (n m : Nat) : (noteExchange n m s).req1 = s.req1 := rfl
@[simp] theorem noteExchange_req2 (n m : Nat) : (noteExchange n m s).req2 = s.req2 := rfl
@[simp] theorem noteExchange_resp0 (n m : Nat) : (noteExchange n m s).resp0 = s.resp0 := rfl
@[simp] theorem noteExchange_resp1 (n m : Nat) : (noteExchange n m s).resp1 = s.resp1 := rfl
@[simp] theorem noteExchange_seq (n m : Nat) : (noteExchange n m s).seq = s.seq := rfl
@[simp] theorem noteExchange_attempts (n m : Nat) : (noteExchange n m s).attempts = s.attempts := rfl
@[simp] theorem noteExchange_chipId (n m : Nat) : (noteExchange n m s).chipId = s.chipId := rfl
@[simp] theorem noteExchange_status (n m : Nat) : (noteExchange n m s).status = s.status := rfl
@[simp] theorem noteExchange_error (n m : Nat) : (noteExchange n m s).error = s.error := rfl
@[simp] theorem noteExchange_warnFamily (n m : Nat) : (noteExchange n m s).warnFamily = s.warnFamily := rfl
@[simp] theorem noteExchange_gate (n m : Nat) : (noteExchange n m s).gate = s.gate := rfl
@[simp] theorem noteExchange_oscPolls (n m : Nat) : (noteExchange n m s).oscPolls = s.oscPolls := rfl
@[simp] theorem noteExchange_extractOk (n m : Nat) : (noteExchange n m s).extractOk = s.extractOk := rfl
@[simp] theorem noteExchange_haltResp (n m : Nat) : (noteExchange n m s).haltResp = s.haltResp := rfl
@[simp] theorem noteExchange_trace (n m : Nat) : (noteExchange n m s).trace = s.trace := rfl
@[simp] theorem noteExchange_held (n m : Nat) : (noteExchange n m s).held = { s.held with req := n, resp := m } := rfl
@[simp] theorem noteExchange_answers (n m : Nat) : (noteExchange n m s).answers = s.answers := rfl
@[simp] theorem noteExchange_samples (n m : Nat) : (noteExchange n m s).samples = s.samples := rfl
@[simp] theorem noteExchange_calls (n m : Nat) : (noteExchange n m s).calls = s.calls := rfl
@[simp] theorem noteExchange_returned (n m : Nat) : (noteExchange n m s).returned = s.returned := rfl

/-! ### `setSeq` -/

@[simp] theorem setSeq_session (q : SeqState) : (setSeq q s).session = s.session := rfl
@[simp] theorem setSeq_link (q : SeqState) : (setSeq q s).link = s.link := rfl
@[simp] theorem setSeq_req0 (q : SeqState) : (setSeq q s).req0 = s.req0 := rfl
@[simp] theorem setSeq_req1 (q : SeqState) : (setSeq q s).req1 = s.req1 := rfl
@[simp] theorem setSeq_req2 (q : SeqState) : (setSeq q s).req2 = s.req2 := rfl
@[simp] theorem setSeq_resp0 (q : SeqState) : (setSeq q s).resp0 = s.resp0 := rfl
@[simp] theorem setSeq_resp1 (q : SeqState) : (setSeq q s).resp1 = s.resp1 := rfl
@[simp] theorem setSeq_seq (q : SeqState) : (setSeq q s).seq = q := rfl
@[simp] theorem setSeq_attempts (q : SeqState) : (setSeq q s).attempts = s.attempts := rfl
@[simp] theorem setSeq_chipId (q : SeqState) : (setSeq q s).chipId = s.chipId := rfl
@[simp] theorem setSeq_status (q : SeqState) : (setSeq q s).status = s.status := rfl
@[simp] theorem setSeq_error (q : SeqState) : (setSeq q s).error = s.error := rfl
@[simp] theorem setSeq_warnFamily (q : SeqState) : (setSeq q s).warnFamily = s.warnFamily := rfl
@[simp] theorem setSeq_gate (q : SeqState) : (setSeq q s).gate = s.gate := rfl
@[simp] theorem setSeq_oscPolls (q : SeqState) : (setSeq q s).oscPolls = s.oscPolls := rfl
@[simp] theorem setSeq_extractOk (q : SeqState) : (setSeq q s).extractOk = s.extractOk := rfl
@[simp] theorem setSeq_haltResp (q : SeqState) : (setSeq q s).haltResp = s.haltResp := rfl
@[simp] theorem setSeq_trace (q : SeqState) : (setSeq q s).trace = s.trace := rfl
@[simp] theorem setSeq_held (q : SeqState) : (setSeq q s).held = s.held := rfl
@[simp] theorem setSeq_answers (q : SeqState) : (setSeq q s).answers = s.answers := rfl
@[simp] theorem setSeq_samples (q : SeqState) : (setSeq q s).samples = s.samples := rfl
@[simp] theorem setSeq_calls (q : SeqState) : (setSeq q s).calls = s.calls := rfl
@[simp] theorem setSeq_returned (q : SeqState) : (setSeq q s).returned = s.returned := rfl

/-! ### `countAttempt` -/

@[simp] theorem countAttempt_session : (countAttempt s).session = s.session := rfl
@[simp] theorem countAttempt_link : (countAttempt s).link = s.link := rfl
@[simp] theorem countAttempt_req0 : (countAttempt s).req0 = s.req0 := rfl
@[simp] theorem countAttempt_req1 : (countAttempt s).req1 = s.req1 := rfl
@[simp] theorem countAttempt_req2 : (countAttempt s).req2 = s.req2 := rfl
@[simp] theorem countAttempt_resp0 : (countAttempt s).resp0 = s.resp0 := rfl
@[simp] theorem countAttempt_resp1 : (countAttempt s).resp1 = s.resp1 := rfl
@[simp] theorem countAttempt_seq : (countAttempt s).seq = s.seq := rfl
@[simp] theorem countAttempt_attempts : (countAttempt s).attempts = s.attempts + 1 := rfl
@[simp] theorem countAttempt_chipId : (countAttempt s).chipId = s.chipId := rfl
@[simp] theorem countAttempt_status : (countAttempt s).status = s.status := rfl
@[simp] theorem countAttempt_error : (countAttempt s).error = s.error := rfl
@[simp] theorem countAttempt_warnFamily : (countAttempt s).warnFamily = s.warnFamily := rfl
@[simp] theorem countAttempt_gate : (countAttempt s).gate = s.gate := rfl
@[simp] theorem countAttempt_oscPolls : (countAttempt s).oscPolls = s.oscPolls := rfl
@[simp] theorem countAttempt_extractOk : (countAttempt s).extractOk = s.extractOk := rfl
@[simp] theorem countAttempt_haltResp : (countAttempt s).haltResp = s.haltResp := rfl
@[simp] theorem countAttempt_trace : (countAttempt s).trace = s.trace := rfl
@[simp] theorem countAttempt_held : (countAttempt s).held = s.held := rfl
@[simp] theorem countAttempt_answers : (countAttempt s).answers = s.answers := rfl
@[simp] theorem countAttempt_samples : (countAttempt s).samples = s.samples := rfl
@[simp] theorem countAttempt_calls : (countAttempt s).calls = s.calls := rfl
@[simp] theorem countAttempt_returned : (countAttempt s).returned = s.returned := rfl

/-! ### `setGate` -/

@[simp] theorem setGate_session (g : GateState) : (setGate g s).session = s.session := rfl
@[simp] theorem setGate_link (g : GateState) : (setGate g s).link = s.link := rfl
@[simp] theorem setGate_req0 (g : GateState) : (setGate g s).req0 = s.req0 := rfl
@[simp] theorem setGate_req1 (g : GateState) : (setGate g s).req1 = s.req1 := rfl
@[simp] theorem setGate_req2 (g : GateState) : (setGate g s).req2 = s.req2 := rfl
@[simp] theorem setGate_resp0 (g : GateState) : (setGate g s).resp0 = s.resp0 := rfl
@[simp] theorem setGate_resp1 (g : GateState) : (setGate g s).resp1 = s.resp1 := rfl
@[simp] theorem setGate_seq (g : GateState) : (setGate g s).seq = s.seq := rfl
@[simp] theorem setGate_attempts (g : GateState) : (setGate g s).attempts = s.attempts := rfl
@[simp] theorem setGate_chipId (g : GateState) : (setGate g s).chipId = s.chipId := rfl
@[simp] theorem setGate_status (g : GateState) : (setGate g s).status = s.status := rfl
@[simp] theorem setGate_error (g : GateState) : (setGate g s).error = s.error := rfl
@[simp] theorem setGate_warnFamily (g : GateState) : (setGate g s).warnFamily = s.warnFamily := rfl
@[simp] theorem setGate_gate (g : GateState) : (setGate g s).gate = g := rfl
@[simp] theorem setGate_oscPolls (g : GateState) : (setGate g s).oscPolls = s.oscPolls := rfl
@[simp] theorem setGate_extractOk (g : GateState) : (setGate g s).extractOk = s.extractOk := rfl
@[simp] theorem setGate_haltResp (g : GateState) : (setGate g s).haltResp = s.haltResp := rfl
@[simp] theorem setGate_trace (g : GateState) : (setGate g s).trace = s.trace := rfl
@[simp] theorem setGate_held (g : GateState) : (setGate g s).held = s.held := rfl
@[simp] theorem setGate_answers (g : GateState) : (setGate g s).answers = s.answers := rfl
@[simp] theorem setGate_samples (g : GateState) : (setGate g s).samples = s.samples := rfl
@[simp] theorem setGate_calls (g : GateState) : (setGate g s).calls = s.calls := rfl
@[simp] theorem setGate_returned (g : GateState) : (setGate g s).returned = s.returned := rfl

/-! ### `setPolls` -/

@[simp] theorem setPolls_session (n : BitVec 6) : (setPolls n s).session = s.session := rfl
@[simp] theorem setPolls_link (n : BitVec 6) : (setPolls n s).link = s.link := rfl
@[simp] theorem setPolls_req0 (n : BitVec 6) : (setPolls n s).req0 = s.req0 := rfl
@[simp] theorem setPolls_req1 (n : BitVec 6) : (setPolls n s).req1 = s.req1 := rfl
@[simp] theorem setPolls_req2 (n : BitVec 6) : (setPolls n s).req2 = s.req2 := rfl
@[simp] theorem setPolls_resp0 (n : BitVec 6) : (setPolls n s).resp0 = s.resp0 := rfl
@[simp] theorem setPolls_resp1 (n : BitVec 6) : (setPolls n s).resp1 = s.resp1 := rfl
@[simp] theorem setPolls_seq (n : BitVec 6) : (setPolls n s).seq = s.seq := rfl
@[simp] theorem setPolls_attempts (n : BitVec 6) : (setPolls n s).attempts = s.attempts := rfl
@[simp] theorem setPolls_chipId (n : BitVec 6) : (setPolls n s).chipId = s.chipId := rfl
@[simp] theorem setPolls_status (n : BitVec 6) : (setPolls n s).status = s.status := rfl
@[simp] theorem setPolls_error (n : BitVec 6) : (setPolls n s).error = s.error := rfl
@[simp] theorem setPolls_warnFamily (n : BitVec 6) : (setPolls n s).warnFamily = s.warnFamily := rfl
@[simp] theorem setPolls_gate (n : BitVec 6) : (setPolls n s).gate = s.gate := rfl
@[simp] theorem setPolls_oscPolls (n : BitVec 6) : (setPolls n s).oscPolls = n := rfl
@[simp] theorem setPolls_extractOk (n : BitVec 6) : (setPolls n s).extractOk = s.extractOk := rfl
@[simp] theorem setPolls_haltResp (n : BitVec 6) : (setPolls n s).haltResp = s.haltResp := rfl
@[simp] theorem setPolls_trace (n : BitVec 6) : (setPolls n s).trace = s.trace := rfl
@[simp] theorem setPolls_held (n : BitVec 6) : (setPolls n s).held = s.held := rfl
@[simp] theorem setPolls_answers (n : BitVec 6) : (setPolls n s).answers = s.answers := rfl
@[simp] theorem setPolls_samples (n : BitVec 6) : (setPolls n s).samples = s.samples := rfl
@[simp] theorem setPolls_calls (n : BitVec 6) : (setPolls n s).calls = s.calls := rfl
@[simp] theorem setPolls_returned (n : BitVec 6) : (setPolls n s).returned = s.returned := rfl

/-! ### `grantExtraction` -/

@[simp] theorem grantExtraction_session : (grantExtraction s).session = s.session := rfl
@[simp] theorem grantExtraction_link : (grantExtraction s).link = s.link := rfl
@[simp] theorem grantExtraction_req0 : (grantExtraction s).req0 = s.req0 := rfl
@[simp] theorem grantExtraction_req1 : (grantExtraction s).req1 = s.req1 := rfl
@[simp] theorem grantExtraction_req2 : (grantExtraction s).req2 = s.req2 := rfl
@[simp] theorem grantExtraction_resp0 : (grantExtraction s).resp0 = s.resp0 := rfl
@[simp] theorem grantExtraction_resp1 : (grantExtraction s).resp1 = s.resp1 := rfl
@[simp] theorem grantExtraction_seq : (grantExtraction s).seq = s.seq := rfl
@[simp] theorem grantExtraction_attempts : (grantExtraction s).attempts = s.attempts := rfl
@[simp] theorem grantExtraction_chipId : (grantExtraction s).chipId = s.chipId := rfl
@[simp] theorem grantExtraction_status : (grantExtraction s).status = s.status := rfl
@[simp] theorem grantExtraction_error : (grantExtraction s).error = s.error := rfl
@[simp] theorem grantExtraction_warnFamily : (grantExtraction s).warnFamily = s.warnFamily := rfl
@[simp] theorem grantExtraction_gate : (grantExtraction s).gate = s.gate := rfl
@[simp] theorem grantExtraction_oscPolls : (grantExtraction s).oscPolls = s.oscPolls := rfl
@[simp] theorem grantExtraction_extractOk : (grantExtraction s).extractOk = true := rfl
@[simp] theorem grantExtraction_haltResp : (grantExtraction s).haltResp = s.haltResp := rfl
@[simp] theorem grantExtraction_trace : (grantExtraction s).trace = s.trace := rfl
@[simp] theorem grantExtraction_held : (grantExtraction s).held = s.held := rfl
@[simp] theorem grantExtraction_answers : (grantExtraction s).answers = s.answers := rfl
@[simp] theorem grantExtraction_samples : (grantExtraction s).samples = s.samples := rfl
@[simp] theorem grantExtraction_calls : (grantExtraction s).calls = s.calls := rfl
@[simp] theorem grantExtraction_returned : (grantExtraction s).returned = s.returned := rfl

/-! ### `latchIdentity` -/

@[simp] theorem latchIdentity_session : (latchIdentity s).session = s.session := rfl
@[simp] theorem latchIdentity_link : (latchIdentity s).link = s.link := rfl
@[simp] theorem latchIdentity_req0 : (latchIdentity s).req0 = s.req0 := rfl
@[simp] theorem latchIdentity_req1 : (latchIdentity s).req1 = s.req1 := rfl
@[simp] theorem latchIdentity_req2 : (latchIdentity s).req2 = s.req2 := rfl
@[simp] theorem latchIdentity_resp0 : (latchIdentity s).resp0 = s.resp0 := rfl
@[simp] theorem latchIdentity_resp1 : (latchIdentity s).resp1 = s.resp1 := rfl
@[simp] theorem latchIdentity_seq : (latchIdentity s).seq = s.seq := rfl
@[simp] theorem latchIdentity_attempts : (latchIdentity s).attempts = s.attempts := rfl
@[simp] theorem latchIdentity_chipId : (latchIdentity s).chipId = joinBytes s.resp0 s.resp1 := rfl
@[simp] theorem latchIdentity_status : (latchIdentity s).status = s.status := rfl
@[simp] theorem latchIdentity_error : (latchIdentity s).error = s.error := rfl
@[simp] theorem latchIdentity_warnFamily : (latchIdentity s).warnFamily = s.warnFamily := rfl
@[simp] theorem latchIdentity_gate : (latchIdentity s).gate = s.gate := rfl
@[simp] theorem latchIdentity_oscPolls : (latchIdentity s).oscPolls = s.oscPolls := rfl
@[simp] theorem latchIdentity_extractOk : (latchIdentity s).extractOk = s.extractOk := rfl
@[simp] theorem latchIdentity_haltResp : (latchIdentity s).haltResp = s.haltResp := rfl
@[simp] theorem latchIdentity_trace : (latchIdentity s).trace = s.trace := rfl
@[simp] theorem latchIdentity_held : (latchIdentity s).held = { s.held with chipId := true } := rfl
@[simp] theorem latchIdentity_answers : (latchIdentity s).answers = s.answers := rfl
@[simp] theorem latchIdentity_samples : (latchIdentity s).samples = s.samples := rfl
@[simp] theorem latchIdentity_calls : (latchIdentity s).calls = s.calls := rfl
@[simp] theorem latchIdentity_returned : (latchIdentity s).returned = s.returned := rfl

/-! ### `latchStatus` -/

@[simp] theorem latchStatus_session : (latchStatus s).session = s.session := rfl
@[simp] theorem latchStatus_link : (latchStatus s).link = s.link := rfl
@[simp] theorem latchStatus_req0 : (latchStatus s).req0 = s.req0 := rfl
@[simp] theorem latchStatus_req1 : (latchStatus s).req1 = s.req1 := rfl
@[simp] theorem latchStatus_req2 : (latchStatus s).req2 = s.req2 := rfl
@[simp] theorem latchStatus_resp0 : (latchStatus s).resp0 = s.resp0 := rfl
@[simp] theorem latchStatus_resp1 : (latchStatus s).resp1 = s.resp1 := rfl
@[simp] theorem latchStatus_seq : (latchStatus s).seq = s.seq := rfl
@[simp] theorem latchStatus_attempts : (latchStatus s).attempts = s.attempts := rfl
@[simp] theorem latchStatus_chipId : (latchStatus s).chipId = s.chipId := rfl
@[simp] theorem latchStatus_status : (latchStatus s).status = s.resp0 := rfl
@[simp] theorem latchStatus_error : (latchStatus s).error = s.error := rfl
@[simp] theorem latchStatus_warnFamily : (latchStatus s).warnFamily = s.warnFamily := rfl
@[simp] theorem latchStatus_gate : (latchStatus s).gate = s.gate := rfl
@[simp] theorem latchStatus_oscPolls : (latchStatus s).oscPolls = s.oscPolls := rfl
@[simp] theorem latchStatus_extractOk : (latchStatus s).extractOk = s.extractOk := rfl
@[simp] theorem latchStatus_haltResp : (latchStatus s).haltResp = s.haltResp := rfl
@[simp] theorem latchStatus_trace : (latchStatus s).trace = s.trace := rfl
@[simp] theorem latchStatus_held : (latchStatus s).held = { s.held with status := true } := rfl
@[simp] theorem latchStatus_answers : (latchStatus s).answers = s.answers := rfl
@[simp] theorem latchStatus_samples : (latchStatus s).samples = s.samples := rfl
@[simp] theorem latchStatus_calls : (latchStatus s).calls = s.calls := rfl
@[simp] theorem latchStatus_returned : (latchStatus s).returned = s.returned := rfl

/-! ### `latchHalt` -/

@[simp] theorem latchHalt_session : (latchHalt s).session = s.session := rfl
@[simp] theorem latchHalt_link : (latchHalt s).link = s.link := rfl
@[simp] theorem latchHalt_req0 : (latchHalt s).req0 = s.req0 := rfl
@[simp] theorem latchHalt_req1 : (latchHalt s).req1 = s.req1 := rfl
@[simp] theorem latchHalt_req2 : (latchHalt s).req2 = s.req2 := rfl
@[simp] theorem latchHalt_resp0 : (latchHalt s).resp0 = s.resp0 := rfl
@[simp] theorem latchHalt_resp1 : (latchHalt s).resp1 = s.resp1 := rfl
@[simp] theorem latchHalt_seq : (latchHalt s).seq = s.seq := rfl
@[simp] theorem latchHalt_attempts : (latchHalt s).attempts = s.attempts := rfl
@[simp] theorem latchHalt_chipId : (latchHalt s).chipId = s.chipId := rfl
@[simp] theorem latchHalt_status : (latchHalt s).status = s.status := rfl
@[simp] theorem latchHalt_error : (latchHalt s).error = s.error := rfl
@[simp] theorem latchHalt_warnFamily : (latchHalt s).warnFamily = s.warnFamily := rfl
@[simp] theorem latchHalt_gate : (latchHalt s).gate = s.gate := rfl
@[simp] theorem latchHalt_oscPolls : (latchHalt s).oscPolls = s.oscPolls := rfl
@[simp] theorem latchHalt_extractOk : (latchHalt s).extractOk = s.extractOk := rfl
@[simp] theorem latchHalt_haltResp : (latchHalt s).haltResp = s.resp0 := rfl
@[simp] theorem latchHalt_trace : (latchHalt s).trace = s.trace := rfl
@[simp] theorem latchHalt_held : (latchHalt s).held = { s.held with haltResp := true } := rfl
@[simp] theorem latchHalt_answers : (latchHalt s).answers = s.answers := rfl
@[simp] theorem latchHalt_samples : (latchHalt s).samples = s.samples := rfl
@[simp] theorem latchHalt_calls : (latchHalt s).calls = s.calls := rfl
@[simp] theorem latchHalt_returned : (latchHalt s).returned = s.returned := rfl

/-! ### `checkFamily` -/

@[simp] theorem checkFamily_session (x : Byte) : (checkFamily x s).session = s.session := rfl
@[simp] theorem checkFamily_link (x : Byte) : (checkFamily x s).link = s.link := rfl
@[simp] theorem checkFamily_req0 (x : Byte) : (checkFamily x s).req0 = s.req0 := rfl
@[simp] theorem checkFamily_req1 (x : Byte) : (checkFamily x s).req1 = s.req1 := rfl
@[simp] theorem checkFamily_req2 (x : Byte) : (checkFamily x s).req2 = s.req2 := rfl
@[simp] theorem checkFamily_resp0 (x : Byte) : (checkFamily x s).resp0 = s.resp0 := rfl
@[simp] theorem checkFamily_resp1 (x : Byte) : (checkFamily x s).resp1 = s.resp1 := rfl
@[simp] theorem checkFamily_seq (x : Byte) : (checkFamily x s).seq = s.seq := rfl
@[simp] theorem checkFamily_attempts (x : Byte) : (checkFamily x s).attempts = s.attempts := rfl
@[simp] theorem checkFamily_chipId (x : Byte) : (checkFamily x s).chipId = s.chipId := rfl
@[simp] theorem checkFamily_status (x : Byte) : (checkFamily x s).status = s.status := rfl
@[simp] theorem checkFamily_error (x : Byte) : (checkFamily x s).error = s.error := rfl
@[simp] theorem checkFamily_warnFamily (x : Byte) : (checkFamily x s).warnFamily = (s.warnFamily || familyMismatch x s.chipId) := rfl
@[simp] theorem checkFamily_gate (x : Byte) : (checkFamily x s).gate = s.gate := rfl
@[simp] theorem checkFamily_oscPolls (x : Byte) : (checkFamily x s).oscPolls = s.oscPolls := rfl
@[simp] theorem checkFamily_extractOk (x : Byte) : (checkFamily x s).extractOk = s.extractOk := rfl
@[simp] theorem checkFamily_haltResp (x : Byte) : (checkFamily x s).haltResp = s.haltResp := rfl
@[simp] theorem checkFamily_trace (x : Byte) : (checkFamily x s).trace = s.trace := rfl
@[simp] theorem checkFamily_held (x : Byte) : (checkFamily x s).held = s.held := rfl
@[simp] theorem checkFamily_answers (x : Byte) : (checkFamily x s).answers = s.answers := rfl
@[simp] theorem checkFamily_samples (x : Byte) : (checkFamily x s).samples = s.samples := rfl
@[simp] theorem checkFamily_calls (x : Byte) : (checkFamily x s).calls = s.calls := rfl
@[simp] theorem checkFamily_returned (x : Byte) : (checkFamily x s).returned = s.returned := rfl

/-! ### Reset of the block -/

@[simp] theorem resetBlock_session : (resetBlock s).session = State.reset.session := rfl
@[simp] theorem resetBlock_link : (resetBlock s).link = State.reset.link := rfl
@[simp] theorem resetBlock_req0 : (resetBlock s).req0 = State.reset.req0 := rfl
@[simp] theorem resetBlock_req1 : (resetBlock s).req1 = State.reset.req1 := rfl
@[simp] theorem resetBlock_req2 : (resetBlock s).req2 = State.reset.req2 := rfl
@[simp] theorem resetBlock_resp0 : (resetBlock s).resp0 = State.reset.resp0 := rfl
@[simp] theorem resetBlock_resp1 : (resetBlock s).resp1 = State.reset.resp1 := rfl
@[simp] theorem resetBlock_seq : (resetBlock s).seq = State.reset.seq := rfl
@[simp] theorem resetBlock_attempts : (resetBlock s).attempts = State.reset.attempts := rfl
@[simp] theorem resetBlock_chipId : (resetBlock s).chipId = State.reset.chipId := rfl
@[simp] theorem resetBlock_status : (resetBlock s).status = State.reset.status := rfl
@[simp] theorem resetBlock_error : (resetBlock s).error = State.reset.error := rfl
@[simp] theorem resetBlock_warnFamily : (resetBlock s).warnFamily = State.reset.warnFamily := rfl
@[simp] theorem resetBlock_gate : (resetBlock s).gate = State.reset.gate := rfl
@[simp] theorem resetBlock_oscPolls : (resetBlock s).oscPolls = State.reset.oscPolls := rfl
@[simp] theorem resetBlock_extractOk : (resetBlock s).extractOk = State.reset.extractOk := rfl
@[simp] theorem resetBlock_haltResp : (resetBlock s).haltResp = State.reset.haltResp := rfl
@[simp] theorem resetBlock_trace : (resetBlock s).trace = State.reset.trace := rfl
@[simp] theorem resetBlock_held : (resetBlock s).held = State.reset.held := rfl
@[simp] theorem resetBlock_answers : (resetBlock s).answers = s.answers := rfl
@[simp] theorem resetBlock_samples : (resetBlock s).samples = s.samples := rfl
@[simp] theorem resetBlock_calls : (resetBlock s).calls = s.calls := rfl
@[simp] theorem resetBlock_returned : (resetBlock s).returned = State.reset.returned := rfl

end Sys2Proof.Machine
end

