-- ==== Sys2Proof/Laws/BitClock.lean ====
section
/-! SUPPORT. What each BitClock operation does, said once: each is a move of the wire (`State.onWire`) and nothing
else. Later proofs cite these and never unfold the operations. -/

namespace Sys2Proof.Machine

/-! ### Moves of the wire compose -/

theorem onWire_onWire (s : State) (l l' : Link) (es es' : List Event) (m n : Nat) :
    (s.onWire l es m).onWire l' es' n = s.onWire l' (es ++ es') (m + n) := by
  simp [State.onWire, Nat.add_assoc]

@[simp] theorem upcoming_onWire (s : State) (l : Link) (es : List Event) (n k : Nat) :
    (s.onWire l es n).upcoming k = s.upcoming (n + k) := by
  simp [State.upcoming, Nat.add_assoc]

@[simp] theorem upcomingByte_onWire (s : State) (l : Link) (es : List Event) (n k : Nat) :
    (s.onWire l es n).upcomingByte k = s.upcomingByte (n + k) := by
  simp [State.upcomingByte, Nat.add_assoc]

/-- A byte assembled from eight presented bits shows them again, first to last (R125, R128). -/
theorem bitsMsbFirst_upcomingByte (s : State) (k : Nat) :
    bitsMsbFirst (s.upcomingByte k) =
      [s.upcoming k, s.upcoming (k + 1), s.upcoming (k + 2), s.upcoming (k + 3), s.upcoming (k + 4),
        s.upcoming (k + 5), s.upcoming (k + 6), s.upcoming (k + 7)] := by
  unfold State.upcomingByte
  generalize s.upcoming k = b7, s.upcoming (k + 1) = b6, s.upcoming (k + 2) = b5, s.upcoming (k + 3) = b4,
    s.upcoming (k + 4) = b3, s.upcoming (k + 5) = b2, s.upcoming (k + 6) = b1, s.upcoming (k + 7) = b0
  revert b7 b6 b5 b4 b3 b2 b1 b0
  decide

/-- Setting bits 7 down to 0 of a zero byte assembles the byte (R125, R128). -/
theorem setBit_all (b7 b6 b5 b4 b3 b2 b1 b0 : Bit) :
    setBit (setBit (setBit (setBit (setBit (setBit (setBit (setBit 0 7 b7) 6 b6) 5 b5) 4 b4) 3 b3) 2 b2) 1 b1) 0 b0 =
      BitVec.ofNat 8 (b7.toNat * 128 + b6.toNat * 64 + b5.toNat * 32 + b4.toNat * 16 + b3.toNat * 8 + b2.toNat * 4 +
        b1.toNat * 2 + b0.toNat) := by
  revert b7 b6 b5 b4 b3 b2 b1 b0
  decide

/-! ### The operations -/

theorem setDir_eq (d : Dir) (s : State) :
    setDir d s = s.onWire { s.link with dataDir := d } (dirShape s.link.dataDir d) 0 := by
  unfold setDir dirShape
  split
  · next h => subst h; simp [State.onWire]
  · simp [State.onWire, wait, setDirRaw, emit]

theorem pulseClock_eq (s : State) : pulseClock s = s.onWire { s.link with clk := false } pulseShape 0 := by
  simp [pulseClock, wait, driveClk, emit, State.onWire, pulseShape]

theorem writeBit_eq (v : Bit) (s : State) :
    writeBit v s = s.onWire { s.link with dataOut := v, clk := false } (writeBitShape v) 0 := by
  simp [writeBit, pulseClock_eq, driveData, emit, State.onWire, writeBitShape, pulseShape]

theorem readBit_fst (s : State) : (readBit s).1 = s.upcoming 0 := rfl

theorem readBit_snd (s : State) :
    (readBit s).2 = s.onWire { s.link with clk := false } (readBitShape (s.upcoming 0)) 1 := by
  simp [readBit, wait, driveClk, sample, emit, State.onWire, readBitShape, State.upcoming]

theorem writeByte_eq (x : Byte) (s : State) :
    writeByte x s = s.onWire { s.link with dataOut := x.getLsbD 0, clk := false } (writeByteShape x) 0 := by
  simp [writeByte, writeBits, writeBit_eq, onWire_onWire, writeByteShape, bitsMsbFirst]

theorem readByte_fst (s : State) : (readByte s).1 = s.upcomingByte 0 := by
  have hw : ∀ k, (wait .tPre s).upcoming k = s.upcoming k := fun _ => rfl
  simp only [readByte, readBits, readBit_fst, readBit_snd, upcoming_onWire, hw, setBit_all, State.upcomingByte]

theorem readByte_snd (s : State) :
    (readByte s).2 = s.onWire { s.link with clk := false } (readByteShape (s.upcomingByte 0)) 8 := by
  have hw : wait .tPre s = s.onWire s.link [.wait .tPre] 0 := rfl
  simp [readByte, readBits, readBit_snd, hw, onWire_onWire, readByteShape, bitsMsbFirst_upcomingByte]

end Sys2Proof.Machine
end

