-- ==== Sys2Proof/Laws/CommandChannel.lean ====
section
/-! SUPPORT. What an exchange does, said once (`exchange_eq`, `xchg_eq`), and the record of each instruction. -/

namespace Sys2Proof.Machine

/-- Sending bytes one after another is one move of the wire; the latch keeps the last bit sent (R124, R140). -/
theorem foldl_writeByte (x : Byte) (bs : List Byte) (s : State) :
    bs.foldl (fun t b => writeByte b t) (writeByte x s) =
      s.onWire { s.link with dataOut := ((x :: bs).getLastD 0).getLsbD 0, clk := false }
        ((x :: bs).flatMap writeByteShape) 0 := by
  induction bs generalizing x s with
  | nil => simp [writeByte_eq]
  | cons b bs ih =>
    rw [List.foldl_cons, ih b, writeByte_eq x, onWire_onWire]
    simp [List.getLastD]

theorem sendFrame_eq (r : CmdRecord) (s : State) :
    sendFrame r s =
      s.onWire
        { s.link with
          dataDir := .out
          dataOut := ((r.opcode :: s.reqBytes r.nreq.val).getLastD 0).getLsbD 0
          clk := false }
        (dirShape s.link.dataDir .out ++ (r.opcode :: s.reqBytes r.nreq.val).flatMap writeByteShape) 0 := by
  rw [sendFrame, foldl_writeByte, setDir_eq, onWire_onWire]
  simp

/-- A response count that is not 0 is 1 or 2 (R27). -/
theorem nresp_cases : ∀ n : Fin 3, 0 < n.val → n = 1 ∨ n = 2 := by decide

/-- An exchange with at least one response byte, in closed form (R140, R142). -/
theorem exchange_eq (r : CmdRecord) (s : State) (h : 0 < r.nresp.val) : exchange r s = s.exchanged r := by
  obtain ⟨op, nreq, nresp⟩ := r
  rcases nresp_cases nresp h with rfl | rfl <;>
    simp [exchange, turnAround, sendFrame_eq, setDir_eq, readResponses, readByte_fst, readByte_snd,
      State.exchanged, State.upcomingBytes, exchangeShape, dirShape, noteExchange, setResp, State.onWire,
      State.upcomingByte, State.upcoming, State.reqBytes, List.range, List.range.loop, Nat.add_assoc]

/-- What the caller of an exchange is handed: the bytes the target presented (R140). -/
theorem respBytes_exchanged (r : CmdRecord) (s : State) (h : 0 < r.nresp.val) :
    (s.exchanged r).respBytes r.nresp.val = s.upcomingBytes r.nresp.val := by
  obtain ⟨op, nreq, nresp⟩ := r
  rcases nresp_cases nresp h with rfl | rfl <;>
    simp [State.respBytes, State.exchanged, State.upcomingBytes, List.range, List.range.loop]

/-- Loading the request buffer leaves the target's answers. -/
@[simp] theorem upcomingByte_loadReq (req : List Byte) (s : State) (k : Nat) :
    (loadReq req s).upcomingByte k = s.upcomingByte k := rfl

/-- The call of an exchange whose record is known, with the record's number of request bytes (R140, R141). -/
theorem xchg_eq (op : Byte) (r : CmdRecord) (req : List Byte) (s : State) (hr : cmdLookup op = some r)
    (hn : req.length = r.nreq.val) (hp : 0 < r.nresp.val) (ho : s.session = .opened) (hc : s.link.clk = false) :
    xchg op req s = .next (s.commanded r req) := by
  have hb : (loadReq req s).upcomingBytes r.nresp.val = s.upcomingBytes r.nresp.val := rfl
  simp [xchg, whenOpen, ho, hr, hn, whenClockLow, hc, returning, exchange_eq _ _ hp, respBytes_exchanged _ _ hp, hb,
    State.commanded]

end Sys2Proof.Machine
end

