-- ==== Sys2Proof/Laws/DebugEntry.lean ====
section
/-! SUPPORT. What the pieces of `attach` and `gate` do, said once: one attempt, one checked status read, the HALT, and
what the oscillator loop can end in. -/

namespace Sys2Proof.Machine

/-! ### attach -/

/-- One attempt in closed form (R172 to R176, R184). -/
theorem attempt_eq (s : State) :
    attempt s =
      { s.onWire { clk := false, dataDir := .inp, dataOut := false, resetN := true }
          (attemptShape s.link.dataDir (s.upcomingByte 0) (s.upcomingByte 8)) 16 with
        attempts := s.attempts + 1
        seq := .settling
        chipId := s.upcomingId 0
        resp0 := s.upcomingByte 0
        resp1 := s.upcomingByte 8
        held := { s.held with req := 0, resp := 2, chipId := true } } := by
  simp [attempt, readIdentity, exchange_eq, Cmd.getChipId, settle, releaseReset, twoClockEdges, assertReset,
    pulseClock_eq, wait, driveReset, emit, State.exchanged, State.onWire, latchIdentity, State.respHalf,
    State.upcomingByte, State.upcoming, State.upcomingId, State.reqBytes, attemptShape, entryShape, pulseShape,
    exchangeShape, State.upcomingBytes, List.range, List.range.loop]

/-- After an attempt the target's answers go on sixteen samples later. -/
theorem upcoming_attempt (s : State) (q : SeqState) (j : Nat) :
    (setSeq q (attempt s)).upcoming j = s.upcoming (16 + j) := by
  simp only [State.upcoming, setSeq_answers, setSeq_samples, attempt_eq]
  simp [Nat.add_assoc]

@[inherit_doc upcoming_attempt]
theorem upcomingByte_attempt (s : State) (q : SeqState) (j : Nat) :
    (setSeq q (attempt s)).upcomingByte j = s.upcomingByte (16 + j) := by
  simp only [State.upcomingByte, upcoming_attempt, Nat.add_assoc]

/-- After an attempt the next identity is the one that was second before it (R183). -/
theorem upcomingId_attempt (s : State) (q : SeqState) (j : Nat) :
    (setSeq q (attempt s)).upcomingId j = s.upcomingId (j + 1) := by
  simp [State.upcomingId, upcomingByte_attempt, Nat.mul_add, Nat.add_comm, Nat.add_left_comm]

/-- The registers the loop asks about after an attempt (R177, R178). -/
theorem chipId_attempt (s : State) : (attempt s).chipId = s.upcomingId 0 := by rw [attempt_eq]

@[inherit_doc chipId_attempt]
theorem attempts_attempt (s : State) : (attempt s).attempts = s.attempts + 1 := by rw [attempt_eq]

/-- The events of one attempt (R184). -/
theorem trace_attempt (s : State) :
    (attempt s).trace = s.trace ++ attemptShape s.link.dataDir (s.upcomingByte 0) (s.upcomingByte 8) := by
  rw [attempt_eq]
  rfl

/-- The first attempt, as the closed form of one attempt. -/
theorem afterAttempts_one (s : State) (q : SeqState) :
    returning .nothing (setSeq q (attempt s)) = setSeq q (s.afterAttempts 1) := by
  rw [attempt_eq]
  simp [setSeq, returning, State.afterAttempts, State.onWire, State.attemptsShape, List.range, List.range.loop]

/-- One attempt and then `k + 1` more are `k + 2` attempts (R184: back to back). -/
theorem afterAttempts_attempt (s : State) (q q' : SeqState) (k : Nat) :
    setSeq q ((setSeq q' (attempt s)).afterAttempts (k + 1)) = setSeq q (s.afterAttempts (k + 2)) := by
  have e1 : ∀ a : Nat, 16 * (a + 1) = 16 + 16 * a := fun a => by omega
  have e2 : s.attempts + 1 + BitVec.ofNat 2 (k + 1) = s.attempts + BitVec.ofNat 2 (k + 2) := by
    rw [show k + 2 = k + 1 + 1 from rfl, BitVec.ofNat_add (k + 1) 1, add_assoc, add_comm (1 : BitVec 2)]
    rfl
  simp only [State.afterAttempts, State.attemptsShape, upcomingByte_attempt, upcomingId_attempt, Nat.add_sub_cancel,
    show k + 2 - 1 = k + 1 from rfl]
  rw [attempt_eq, ← e2, List.range_succ_eq_map (n := k + 1), List.range_succ_eq_map (n := k)]
  simp [setSeq, State.onWire, List.flatMap_map, e1, Nat.add_assoc]

/-- One pass of the loop: what decides whether it is the last (R177 to R179). -/
theorem attachLoop_succ (p : Config.Sequencing) (n : Nat) (s : State) :
    attachLoop p (n + 1) s =
      if identityValid (s.upcomingId 0) then setSeq .verified (attempt s)
      else if (s.attempts + 1).toNat = p.maxAttempts then raiseFatal .linkAbsent (setSeq .failed (attempt s))
      else attachLoop p n (setSeq .failed (attempt s)) := by
  rw [attachLoop]
  simp only [chipId_attempt, attempts_attempt]

/-- A valid identity at attempt `k + 1`, none before it and the budget not reached before it: the loop ends there,
Verified (R183). -/
theorem attachLoop_verified (p : Config.Sequencing) (s : State) (k n : Nat) (hk : k < n)
    (budget : ∀ j, j < k → (s.attempts + BitVec.ofNat 2 (j + 1)).toNat ≠ p.maxAttempts)
    (before : ∀ j, j < k → identityValid (s.upcomingId j) = false) (at_k : identityValid (s.upcomingId k) = true) :
    returning .nothing (attachLoop p n s) = setSeq .verified (s.afterAttempts (k + 1)) := by
  induction n generalizing s k with
  | zero => omega
  | succ n ih =>
    rw [attachLoop_succ]
    cases k with
    | zero => rw [if_pos at_k, afterAttempts_one]
    | succ k =>
      rw [if_neg (by rw [before 0 (by omega)]; exact Bool.false_ne_true),
        if_neg (show ¬(s.attempts + 1).toNat = p.maxAttempts from budget 0 (by omega)),
        ih _ k (by omega), afterAttempts_attempt]
      · intro j hj
        have h := budget (j + 1) (by omega)
        rw [setSeq_attempts, attempts_attempt]
        rwa [BitVec.ofNat_add (j + 1) 1, add_comm (BitVec.ofNat 2 (j + 1)), ← add_assoc] at h
      · intro j hj
        rw [upcomingId_attempt]
        exact before _ (by omega)
      · rw [upcomingId_attempt]
        exact at_k

/-- No valid identity up to attempt `k + 1`, where the budget is reached and not before: the loop ends there, fatal
(R183, R232). -/
theorem attachLoop_absent (p : Config.Sequencing) (s : State) (k n : Nat) (hk : k < n)
    (budget : ∀ j, j < k → (s.attempts + BitVec.ofNat 2 (j + 1)).toNat ≠ p.maxAttempts)
    (reached : (s.attempts + BitVec.ofNat 2 (k + 1)).toNat = p.maxAttempts)
    (none_valid : ∀ j, j ≤ k → identityValid (s.upcomingId j) = false) :
    returning .nothing (attachLoop p n s) = raiseFatal .linkAbsent (setSeq .failed (s.afterAttempts (k + 1))) := by
  induction n generalizing s k with
  | zero => omega
  | succ n ih =>
    rw [attachLoop_succ, if_neg (by rw [none_valid 0 (by omega)]; exact Bool.false_ne_true)]
    cases k with
    | zero =>
      rw [if_pos (show (s.attempts + 1).toNat = p.maxAttempts from reached), ← afterAttempts_one]
      rfl
    | succ k =>
      rw [if_neg (show ¬(s.attempts + 1).toNat = p.maxAttempts from budget 0 (by omega)), ih _ k (by omega),
        afterAttempts_attempt]
      · intro j hj
        have h := budget (j + 1) (by omega)
        rw [setSeq_attempts, attempts_attempt]
        rwa [BitVec.ofNat_add (j + 1) 1, add_comm (BitVec.ofNat 2 (j + 1)), ← add_assoc] at h
      · rw [setSeq_attempts, attempts_attempt]
        rwa [BitVec.ofNat_add (k + 1) 1, add_comm (BitVec.ofNat 2 (k + 1)), ← add_assoc] at reached
      · intro j hj
        rw [upcomingId_attempt]
        exact none_valid _ (by omega)

/-! ### gate -/

/-- A checked status read: the byte decides (R188). -/
theorem readStatusChecked_eq (s : State) :
    readStatusChecked s =
      if debugLocked (s.upcomingByte 0) then failGate .debugLocked s.statusRead else .goOn s.statusRead := by
  simp [readStatusChecked, exchange_eq, Cmd.readStatus, State.exchanged, latchStatus, State.onWire, statusShape,
    State.statusRead, State.upcomingBytes, State.reqBytes, List.range, List.range.loop]

/-- HALT in closed form (R190). -/
theorem issueHalt_eq (s : State) : issueHalt s = s.haltSent := by
  simp [issueHalt, exchange_eq, Cmd.halt, State.exchanged, latchHalt, State.onWire, State.upcomingByte, setGate,
    State.haltSent, State.upcoming, State.upcomingBytes, State.reqBytes, List.range, List.range.loop]

/-- The answers left where the gating stands after `k` polls (R189). -/
theorem upcomingByte_polled (expected : Byte) (s : State) (k j : Nat) :
    (s.polled expected k).upcomingByte j = s.upcomingByte (8 * (k + 1) + j) := by
  simp [State.upcomingByte, State.upcoming, State.polled, State.afterReads, State.onWire, Nat.add_assoc]

/-- The first status read of the gating: no poll yet (R187). -/
theorem statusRead_start (expected : Byte) (s : State) :
    setPolls 0 (setGate .gateOsc (setGate .gateLock (checkFamily expected s)).statusRead) = s.polled expected 0 := by
  simp [State.polled, State.afterReads, State.statusRead, State.onWire, setPolls, setGate, checkFamily,
    State.pollsShape, State.upcomingByte, State.upcoming]

/-- One more poll: its read (R189). -/
theorem statusRead_polled (expected : Byte) (s : State) (k : Nat) :
    (setPolls ((s.polled expected k).oscPolls + 1) (wait .tPoll (s.polled expected k))).statusRead =
      s.polled expected (k + 1) := by
  have hb : (setPolls ((s.polled expected k).oscPolls + 1) (wait .tPoll (s.polled expected k))).upcomingByte 0 =
      s.upcomingByte (8 * (k + 1)) := upcomingByte_polled expected s k 0
  have hs : s.pollsShape (k + 1) = s.pollsShape k ++ pollShape (s.upcomingByte (8 * (k + 1))) := by
    rw [State.pollsShape, List.range_succ, List.flatMap_append, ← List.append_assoc]
    simp [State.pollsShape]
  have hp : BitVec.ofNat 6 (k + 1) = BitVec.ofNat 6 k + 1 := by rw [BitVec.ofNat_add]; rfl
  simp only [State.statusRead, hb]
  simp [State.polled, State.afterReads, State.onWire, wait, emit, setPolls, hs, hp, pollShape, Nat.mul_add]
  omega

/-- One more poll: its read decides (R189). -/
theorem pollOnce_polled (expected : Byte) (s : State) (k : Nat) :
    pollOnce (s.polled expected k) =
      if debugLocked (s.upcomingByte (8 * (k + 1))) then failGate .debugLocked (s.polled expected (k + 1))
      else .goOn (s.polled expected (k + 1)) := by
  rw [pollOnce, readStatusChecked_eq, statusRead_polled]
  congr 2

/-- HALT and the read after it (R190, R191). -/
theorem statusRead_halt (expected : Byte) (s : State) (k : Nat) :
    (issueHalt (s.polled expected k)).statusRead = s.haltRead expected k := by
  have h0 : (s.polled expected k).upcomingByte 0 = s.upcomingByte (8 * (k + 1)) := upcomingByte_polled expected s k 0
  have h1 : (s.polled expected k).haltSent.upcomingByte 0 = s.upcomingByte (8 * (k + 2)) := by
    have h := upcomingByte_polled expected s k 8
    simpa [State.haltSent, State.upcomingByte, State.upcoming, State.onWire, Nat.mul_add, Nat.add_assoc] using h
  rw [issueHalt_eq]
  rw [State.statusRead, h1]
  simp only [State.haltSent, h0]
  simp [State.polled, State.haltRead, State.afterReads, State.onWire, State.haltedShape, haltShape, Nat.mul_add]
  omega

/-- What the oscillator loop can end in, from the gating's place after `k` polls with `n` left: stable after some `m`
polls more, the lock at the `m`-th, or all `n` polls used; the expected family has no part in it (R189). -/
theorem pollOscillator_cases (s : State) (n k : Nat) (unlocked : debugLocked (s.upcomingByte (8 * k)) = false) :
    ∃ m, m ≤ n ∧ (∀ j, j < m → s.stillUnstable (k + j)) ∧
      ((debugLocked (s.upcomingByte (8 * (k + m))) = false ∧ oscillatorStable (s.upcomingByte (8 * (k + m))) = true ∧
          ∀ e, pollOscillator n (s.polled e k) = .goOn (s.polled e (k + m))) ∨
        (0 < m ∧ debugLocked (s.upcomingByte (8 * (k + m))) = true ∧
          ∀ e, pollOscillator n (s.polled e k) = failGate .debugLocked (s.polled e (k + m))) ∨
        (m = n ∧ s.stillUnstable (k + m) ∧
          ∀ e, pollOscillator n (s.polled e k) = failGate .oscillatorUnstable (s.polled e (k + m)))) := by
  have hst : ∀ e, (s.polled e k).status = s.upcomingByte (8 * k) := fun _ => rfl
  induction n generalizing k with
  | zero =>
    refine ⟨0, Nat.le_refl 0, fun j hj => absurd hj (Nat.not_lt_zero j), ?_⟩
    cases h : oscillatorStable (s.upcomingByte (8 * k)) with
    | true => exact .inl ⟨unlocked, rfl, fun e => by rw [pollOscillator, hst, if_pos h]; rfl⟩
    | false =>
      refine .inr (.inr ⟨rfl, ⟨unlocked, h⟩, fun e => ?_⟩)
      rw [pollOscillator, hst, h, if_neg Bool.false_ne_true]
      rfl
  | succ n ih =>
    cases h : oscillatorStable (s.upcomingByte (8 * k)) with
    | true =>
      refine ⟨0, Nat.zero_le _, fun j hj => absurd hj (Nat.not_lt_zero j), .inl ⟨unlocked, h, fun e => ?_⟩⟩
      rw [pollOscillator, hst, if_pos h]
      rfl
    | false =>
      have hloop : ∀ e, pollOscillator (n + 1) (s.polled e k) =
          if debugLocked (s.upcomingByte (8 * (k + 1))) then failGate .debugLocked (s.polled e (k + 1))
          else pollOscillator n (s.polled e (k + 1)) := by
        intro e
        rw [pollOscillator, hst, h, if_neg Bool.false_ne_true, pollOnce_polled]
        cases debugLocked (s.upcomingByte (8 * (k + 1))) <;> rfl
      cases hl : debugLocked (s.upcomingByte (8 * (k + 1))) with
      | true =>
        refine ⟨1, by omega, fun j hj => ?_, .inr (.inl ⟨Nat.one_pos, hl, fun e => by rw [hloop, if_pos hl]⟩)⟩
        obtain rfl : j = 0 := by omega
        exact ⟨unlocked, h⟩
      | false =>
        rw [hl] at hloop
        simp only [Bool.false_eq_true, if_false] at hloop
        obtain ⟨m, hm, hu, hc⟩ := ih (k + 1) hl fun _ => rfl
        simp only [show ∀ j, k + 1 + j = k + (j + 1) from fun j => by omega, ← hloop] at hu hc
        refine ⟨m + 1, by omega, fun j hj => ?_, ?_⟩
        · cases j with
          | zero => exact ⟨unlocked, h⟩
          | succ j => exact hu j (by omega)
        · rcases hc with hc | ⟨-, hc⟩ | ⟨rfl, hc⟩
          · exact .inl hc
          · exact .inr (.inl ⟨Nat.succ_pos m, hc⟩)
          · exact .inr (.inr ⟨rfl, hc⟩)

/-- What the gating can end in (R185 to R192): the lock at the first read; the lock at poll `m`; all polls used; or HALT
after `m` polls and the byte read after it. The expected family `e` has no part in which (R186). -/
theorem gateChecks_cases (p : Config.Sequencing) (s : State) :
    (debugLocked (s.upcomingByte 0) = true ∧
      ∀ e, gateChecks { p with expectedFamily := e } s =
        failGate .debugLocked (setGate .gateLock (checkFamily e s)).statusRead) ∨
    (debugLocked (s.upcomingByte 0) = false ∧ ∃ m, m ≤ p.maxOscPolls ∧ (∀ j, j < m → s.stillUnstable j) ∧
      ((0 < m ∧ debugLocked (s.upcomingByte (8 * m)) = true ∧
          ∀ e, gateChecks { p with expectedFamily := e } s = failGate .debugLocked (s.polled e m)) ∨
        (m = p.maxOscPolls ∧ s.stillUnstable m ∧
          ∀ e, gateChecks { p with expectedFamily := e } s = failGate .oscillatorUnstable (s.polled e m)) ∨
        (s.stableAfter m ∧
          ∀ e, gateChecks { p with expectedFamily := e } s =
            if debugLocked (s.upcomingByte (8 * (m + 2))) then failGate .debugLocked (s.haltRead e m)
            else approve (s.haltRead e m)))) := by
  have h0 : ∀ e, (setGate .gateLock (checkFamily e s)).upcomingByte 0 = s.upcomingByte 0 := fun _ => rfl
  cases hl : debugLocked (s.upcomingByte 0) with
  | true =>
    refine .inl ⟨rfl, fun e => ?_⟩
    rw [gateChecks, readStatusChecked_eq, h0, if_pos hl]
    rfl
  | false =>
    obtain ⟨m, hm, hu, hc⟩ := pollOscillator_cases s p.maxOscPolls 0 hl
    simp only [Nat.zero_add] at hu hc
    have hg : ∀ e, gateChecks { p with expectedFamily := e } s =
        (pollOscillator p.maxOscPolls (s.polled e 0)).andThen fun stable =>
          (readStatusChecked (issueHalt stable)).andThen approve := by
      intro e
      rw [gateChecks, readStatusChecked_eq, h0, hl, if_neg Bool.false_ne_true]
      simp only [Flow.andThen, statusRead_start]
    refine .inr ⟨rfl, m, hm, hu, ?_⟩
    rcases hc with ⟨h1, h2, h3⟩ | ⟨h1, h2, h3⟩ | ⟨h1, h2, h3⟩
    · refine .inr (.inr ⟨⟨hu, h1, h2⟩, fun e => ?_⟩)
      have hb : (issueHalt (s.polled e m)).upcomingByte 0 = s.upcomingByte (8 * (m + 2)) :=
        congrArg State.status (statusRead_halt e s m)
      rw [hg, h3]
      simp only [Flow.andThen]
      rw [readStatusChecked_eq, statusRead_halt, hb]
      cases debugLocked (s.upcomingByte (8 * (m + 2))) <;> rfl
    · exact .inl ⟨h1, h2, fun e => by rw [hg, h3]; rfl⟩
    · exact .inr (.inl ⟨h1, h2, fun e => by rw [hg, h3]; rfl⟩)

/-- After HALT the lock decides before the halt bit (R191, R192). -/
theorem approve_haltRead (expected : Byte) (s : State) (m : Nat) :
    approve (s.haltRead expected m) =
      if cpuHalted (s.upcomingByte (8 * (m + 2))) then
        .goOn (grantExtraction (setGate .approved (s.haltRead expected m)))
      else failGate .haltVerificationFailed (s.haltRead expected m) := rfl

end Sys2Proof.Machine
end

