-- ==== Sys2Proof/Laws/PerInstr.lean ====
section
/-! SUPPORT. For every instruction: its frame is one `exchange` admits, and decoding its encoding gives it back with
whatever follows untouched. -/

namespace Sys2Proof

/-- The two bytes of a 16-bit operand, joined again, are the operand (30_encoding R99). -/
theorem hiByte_append_loByte (x : Half) : hiByte x ++ loByte x = x := by
  apply BitVec.eq_of_getLsbD_eq
  intro i hi
  simp only [hiByte, loByte, BitVec.getLsbD_append, BitVec.getLsbD_extractLsb']
  split
  · simp_all
  · have h1 : i - 8 < 8 := by omega
    have h2 : 8 + (i - 8) = i := by omega
    simp [h1, h2]

/-- The high byte of two joined bytes is the first (20_memory R66). -/
theorem hiByte_append (a b : Byte) : hiByte (a ++ b) = a := by
  apply BitVec.eq_of_getLsbD_eq
  intro i hi
  have h : ¬ 8 + i < 8 := by omega
  rw [hiByte, BitVec.getLsbD_extractLsb', BitVec.getLsbD_append]
  simp [hi, h]

/-- The low byte of two joined bytes is the second (20_memory R66). -/
theorem loByte_append (a b : Byte) : loByte (a ++ b) = b := by
  apply BitVec.eq_of_getLsbD_eq
  intro i hi
  rw [loByte, BitVec.getLsbD_extractLsb', BitVec.getLsbD_append]
  simp [hi]

namespace Laws.RoundTrip

/-- The instruction's frame is well formed, and its encoding decodes to it. -/
def Statement (i : Instr) : Prop :=
  i.wellFormed = true ∧ ∀ rest : List Byte, decode i.space (encode i ++ rest) = .ok (i, rest)

theorem chipErase : Statement .chipErase := ⟨rfl, fun _ => rfl⟩
theorem wrConfig (config : Byte) : Statement (.wrConfig config) := ⟨rfl, fun _ => rfl⟩
theorem rdConfig : Statement .rdConfig := ⟨rfl, fun _ => rfl⟩
theorem getPc : Statement .getPc := ⟨rfl, fun _ => rfl⟩
theorem readStatus : Statement .readStatus := ⟨rfl, fun _ => rfl⟩
theorem halt : Statement .halt := ⟨rfl, fun _ => rfl⟩
theorem resume : Statement .resume := ⟨rfl, fun _ => rfl⟩
theorem debugInstr1 (b0 : Byte) : Statement (.debugInstr1 b0) := ⟨rfl, fun _ => rfl⟩
theorem debugInstr2 (b0 b1 : Byte) : Statement (.debugInstr2 b0 b1) := ⟨rfl, fun _ => rfl⟩
theorem debugInstr3 (b0 b1 b2 : Byte) : Statement (.debugInstr3 b0 b1 b2) := ⟨rfl, fun _ => rfl⟩
theorem getChipId : Statement .getChipId := ⟨rfl, fun _ => rfl⟩
theorem setPointer (addr : Half) : Statement (.setPointer addr) := by
  refine ⟨rfl, fun rest => ?_⟩
  show Except.ok (Instr.setPointer (hiByte addr ++ loByte addr), rest) = _
  rw [hiByte_append_loByte]
theorem clearAccumulator : Statement .clearAccumulator := ⟨rfl, fun _ => rfl⟩
theorem loadAccumulatorImmediate (imm : Byte) : Statement (.loadAccumulatorImmediate imm) := ⟨rfl, fun _ => rfl⟩
theorem readCodeByte : Statement .readCodeByte := ⟨rfl, fun _ => rfl⟩
theorem incrementPointer : Statement .incrementPointer := ⟨rfl, fun _ => rfl⟩
theorem writeSpecialRegister (addr imm : Byte) : Statement (.writeSpecialRegister addr imm) := ⟨rfl, fun _ => rfl⟩

end Laws.RoundTrip

end Sys2Proof
end

