-- ==== Sys2Proof/Laws/Decode.lean ====
section
/-! SUPPORT. The command table's lookup against the decoder's rows, and what a well-formed call decodes to. -/

namespace Sys2Proof

/-- The table's record of an opcode is the record of the decoder's row for it (R27, R92). -/
theorem cmdLookup_eq (op : Byte) :
    cmdLookup op = (frameRows.find? fun row => row.record.opcode == op).map FrameRow.record := by
  simp [cmdLookup, cmdTable, List.find?_map]

/-- The one-, two- and three-byte lists. -/
theorem eq_of_length_eq {α : Type} (l : List α) :
    (l.length = 0 → l = []) ∧ (l.length = 1 → ∃ a, l = [a]) ∧ (l.length = 2 → ∃ a b, l = [a, b]) ∧
      (l.length = 3 → ∃ a b c, l = [a, b, c]) :=
  ⟨List.length_eq_zero_iff.1, List.length_eq_one_iff.1, List.length_eq_two.1, List.length_eq_three.1⟩

/-- A known opcode with its record's number of request bytes decodes to the instruction of that frame (R141). -/
theorem decodeWhole_frame (op : Byte) (req : List Byte) (r : CmdRecord) (hl : cmdLookup op = some r)
    (hn : req.length = r.nreq.val) :
    ∃ i : Instr, decodeWhole .frame (op :: req) = .ok i ∧ i.record = r ∧ wireBytes i = op :: req := by
  rw [cmdLookup_eq] at hl
  obtain ⟨row, hf, rfl⟩ := Option.map_eq_some_iff.1 hl
  have hm := List.mem_of_find?_eq_some hf
  have hop := List.find?_some hf
  simp only [beq_iff_eq] at hop
  subst hop
  have hlen := eq_of_length_eq req
  simp only [frameRows, List.mem_cons, List.not_mem_nil, or_false] at hm
  rcases hm with rfl | rfl | rfl | rfl | rfl | rfl | rfl | rfl | rfl | rfl | rfl
  · obtain rfl := hlen.1 hn
    exact ⟨.chipErase, rfl, rfl, rfl⟩
  · obtain ⟨a, rfl⟩ := hlen.2.1 hn
    exact ⟨.wrConfig a, rfl, rfl, rfl⟩
  · obtain rfl := hlen.1 hn
    exact ⟨.rdConfig, rfl, rfl, rfl⟩
  · obtain rfl := hlen.1 hn
    exact ⟨.getPc, rfl, rfl, rfl⟩
  · obtain rfl := hlen.1 hn
    exact ⟨.readStatus, rfl, rfl, rfl⟩
  · obtain rfl := hlen.1 hn
    exact ⟨.halt, rfl, rfl, rfl⟩
  · obtain rfl := hlen.1 hn
    exact ⟨.resume, rfl, rfl, rfl⟩
  · obtain ⟨a, rfl⟩ := hlen.2.1 hn
    exact ⟨.debugInstr1 a, rfl, rfl, rfl⟩
  · obtain ⟨a, b, rfl⟩ := hlen.2.2.1 hn
    exact ⟨.debugInstr2 a b, rfl, rfl, rfl⟩
  · obtain ⟨a, b, c, rfl⟩ := hlen.2.2.2 hn
    exact ⟨.debugInstr3 a b c, rfl, rfl, rfl⟩
  · obtain rfl := hlen.1 hn
    exact ⟨.getChipId, rfl, rfl, rfl⟩

/-- Another number of request bytes than the record's is refused by the decoder, as too few or too many (R141). -/
theorem decodeWhole_frame_count (op : Byte) (req : List Byte) (r : CmdRecord) (hl : cmdLookup op = some r)
    (hn : req.length ≠ r.nreq.val) :
    decodeWhole .frame (op :: req) = .error .tooShort ∨ decodeWhole .frame (op :: req) = .error .tooLong := by
  rw [cmdLookup_eq] at hl
  obtain ⟨row, hf, rfl⟩ := Option.map_eq_some_iff.1 hl
  simp only [decodeWhole, decode, decodeFrame, hf]
  by_cases hlt : req.length < row.record.nreq.val
  · simp [hlt]
  · right
    simp only [hlt, if_false]
    cases hd : req.drop row.record.nreq.val with
    | nil =>
      have := List.drop_eq_nil_iff.1 hd
      omega
    | cons a l => rfl

/-- An opcode without a record decodes to nothing (R100). -/
theorem decodeWhole_frame_unknown (op : Byte) (req : List Byte) (hl : cmdLookup op = none) :
    decodeWhole .frame (op :: req) = .error .unknownOpcode := by
  rw [cmdLookup_eq] at hl
  have hf := Option.map_eq_none_iff.1 hl
  simp [decodeWhole, decode, decodeFrame, hf]

end Sys2Proof
end

