-- ==== Sys2Proof/Laws/Environment.lean ====
section
/-! SUPPORT. The environment contract: the dead link's two forms, and what it says of each instruction that ships native
bytes, said once per instruction whoever ships them. -/

namespace Sys2Proof.Machine

/-- Every byte of a line that reads constant is 0xFF or 0x00 (R83). -/
theorem deadLink_upcomingByte {s : State} {level : Bit} {n k : Nat} (h : s.DeadLink level n) (hk : k + 8 ≤ n) :
    s.upcomingByte k = if level then 0xFF else 0x00 := by
  simp only [State.upcomingByte, h k (by omega), h (k + 1) (by omega), h (k + 2) (by omega), h (k + 3) (by omega),
    h (k + 4) (by omega), h (k + 5) (by omega), h (k + 6) (by omega), h (k + 7) (by omega)]
  cases level <;> rfl

/-- A line that reads constant echoes one byte: the first sentence of R83 is a case of its second. -/
theorem deadLink_echo {s : State} {level : Bit} {n : Nat} (h : s.DeadLink level (8 * n)) :
    s.EchoLink (if level then 0xFF else 0x00) n :=
  fun _ hk => deadLink_upcomingByte h (by omega)

/-- Over a call that cannot carry CHIP_ERASE the lock stays (R85, R161): every pseudo-operation, `attach` and `gate`
among them. -/
theorem locked_call {t t' : Target} {c : Call} (kept : t.LockKept t') (onCommand : t.ErasesOnCommand t' c)
    (hc : c.mayErase = false) (hl : t.locked = true) : t'.locked = true :=
  kept.2 (onCommand hc) hl

/-- The lock's contract chains (R85). -/
theorem lockKept_trans {t t' t'' : Target} (h : t.LockKept t') (h' : t'.LockKept t'') : t.LockKept t'' :=
  ⟨h.1.trans h'.1, fun he hl =>
    have same : t'.erases = t.erases := Nat.le_antisymm (he ▸ h'.1) h.1
    h'.2 (he.trans same.symm) (h.2 same hl)⟩

/-- An instruction's row in the payload space decodes back (R99). -/
theorem decodeWhole_payload (i : Instr) (h : i.space = .payload) : decodeWhole .payload (encode i) = .ok i := by
  cases i with
  | setPointer addr => exact congrArg (fun a => Except.ok (Instr.setPointer a)) (hiByte_append_loByte addr)
  | _ => first | rfl | cases h

/-- The bytes a pseudo-operation ships are its payload (R210). -/
theorem nativeBytes_payload (i : Instr) (h : i.space = .payload) : nativeBytes i = encode i := by
  cases i <;> first | rfl | cases h

/-- Under the contract a pseudo-operation answers the accumulator and has its effect on the target (R86, R211 to R216). -/
theorem executes_payload {code : Nat → Byte} {t t' : Target} {i : Instr} {resp : Byte} (h : i.space = .payload) :
    Target.Executes code t t' i resp ↔ resp = t'.acc ∧ Target.Effect code t t' i := by
  have hne : encode i ≠ [] := by cases i <;> exact List.cons_ne_nil _ _
  rw [Target.Executes, nativeBytes_payload i h, decodeWhole_payload i h]
  exact ⟨fun e => ⟨(e hne).1, (e hne).2 i rfl⟩,
    fun e _ => ⟨e.1, fun p hp => by injection hp with hp; exact hp ▸ e.2⟩⟩

/-- What the contract says of an instruction depends on the bytes it ships alone (R86, R154). -/
theorem executes_congr {code : Nat → Byte} {t t' : Target} {i j : Instr} {resp : Byte}
    (h : nativeBytes i = nativeBytes j) : Target.Executes code t t' i resp ↔ Target.Executes code t t' j resp := by
  rw [Target.Executes, Target.Executes, h]

/-- The two spellings of a code read (R213, V15; log 22). -/
theorem isCodeRead_iff (i : Instr) : isCodeRead i = true ↔ i = .readCodeByte ∨ i = .debugInstr1 0x93 := by
  cases i <;> simp [isCodeRead, nativeBytes, Instr.record, wireBytes, Instr.space, encode, Cmd.debugInstr1,
    Cmd.debugInstr2, Cmd.debugInstr3, Cmd.chipErase, Cmd.wrConfig, Cmd.rdConfig, Cmd.getPc, Cmd.readStatus, Cmd.halt,
    Cmd.resume, Cmd.getChipId]

/-- The two spellings of a clear (R212, V15; log 22). -/
theorem isClear_iff (i : Instr) : isClear i = true ↔ i = .clearAccumulator ∨ i = .debugInstr1 0xE4 := by
  cases i <;> simp [isClear, nativeBytes, Instr.record, wireBytes, Instr.space, encode, Cmd.debugInstr1,
    Cmd.debugInstr2, Cmd.debugInstr3, Cmd.chipErase, Cmd.wrConfig, Cmd.rdConfig, Cmd.getPc, Cmd.readStatus, Cmd.halt,
    Cmd.resume, Cmd.getChipId]

end Sys2Proof.Machine
end

