-- ==== Sys2Proof/Laws/Wire.lean ====
section
/-! SUPPORT. What each shape of events is as seen from the wire: its length, edges and least duration, the bits
latched and sampled, and that it leads from one set of levels to another with every event where it may stand. -/

namespace Sys2Proof.Machine

/-! ### Observations of concatenations -/

theorem risingEdges_append (a b : List Event) : risingEdges (a ++ b) = risingEdges a + risingEdges b := by
  simp [risingEdges]

theorem leastDuration_append (time : Delay → Real) (a b : List Event) :
    leastDuration time (a ++ b) = leastDuration time a + leastDuration time b := by
  simp [leastDuration]

theorem sampled_append (a b : List Event) : sampled (a ++ b) = sampled a ++ sampled b := by
  simp [sampled]

theorem replay_append (l : Link) (a b : List Event) : l.replay (a ++ b) = (l.replay a).replay b := by
  simp [Link.replay]

theorem latched_append (l : Link) (a b : List Event) :
    latched l (a ++ b) = latched l a ++ latched (l.replay a) b := by
  induction a generalizing l with
  | nil => rfl
  | cons e a ih => simp [latched, ih, Link.replay]

theorem orderly_append (l : Link) (a b : List Event) :
    orderly l (a ++ b) = (orderly l a && orderly (l.replay a) b) := by
  induction a generalizing l with
  | nil => rfl
  | cons e a ih => simp [orderly, ih, Link.replay, Bool.and_assoc]

theorem windowEdges_append (w : Option Nat) (a b : List Event) :
    windowEdges w (a ++ b) = windowEdges w a ++ windowEdges (a.foldl windowAfter w) b := by
  induction a generalizing w with
  | nil => rfl
  | cons e a ih => simp [windowEdges, ih]

/-! ### Leading from levels to levels -/

/-- From levels `l` and outside any reset window, the events stand where they may, lead to levels `l'` outside any
window, and every window between holds exactly two rising edges. -/
def Leads (l : Link) (evs : List Event) (l' : Link) : Prop :=
  l.replay evs = l' ∧ orderly l evs = true ∧ (∀ n ∈ windowEdges none evs, n = 2) ∧
    evs.foldl windowAfter none = none

theorem Leads.refl (l : Link) : Leads l [] l := ⟨rfl, rfl, by simp [windowEdges], rfl⟩

theorem Leads.append {l m r : Link} {a b : List Event} (ha : Leads l a m) (hb : Leads m b r) :
    Leads l (a ++ b) r := by
  obtain ⟨h1, h2, h3, h4⟩ := ha
  obtain ⟨g1, g2, g3, g4⟩ := hb
  refine ⟨by rw [replay_append, h1, g1], by rw [orderly_append, h1, h2, g2]; rfl, ?_, by
    rw [List.foldl_append, h4, g4]⟩
  rw [windowEdges_append, h4]
  intro n hn
  rcases List.mem_append.1 hn with h | h
  · exact h3 n h
  · exact g3 n h

/-! ### Shapes of bits -/

theorem leads_dirShape (l : Link) (d : Dir) (hc : l.clk = false) :
    Leads l (dirShape l.dataDir d) { l with dataDir := d } := by
  unfold dirShape
  split
  · next h => subst h; exact Leads.refl l
  · next h => simp [Leads, Link.replay, Link.after, orderly, Link.allows, windowEdges, windowAfter, h, hc]

theorem latched_dirShape (l : Link) (was d : Dir) : latched l (dirShape was d) = [] := by
  unfold dirShape
  split <;> simp [latched, Link.latches]

theorem sampled_dirShape (was d : Dir) : sampled (dirShape was d) = [] := by
  unfold dirShape
  split <;> simp [sampled]

theorem leads_pulseShape (l : Link) (hc : l.clk = false) : Leads l pulseShape l := by
  obtain ⟨c, d, o, r⟩ := l
  simp only at hc
  subst hc
  simp [pulseShape, Leads, Link.replay, Link.after, orderly, Link.allows, windowEdges, windowAfter]

theorem leads_writeBitShape (l : Link) (v : Bit) (hc : l.clk = false) (hd : l.dataDir = .out) :
    Leads l (writeBitShape v) { l with dataOut := v } := by
  obtain ⟨c, d, o, r⟩ := l
  simp only at hc hd
  subst hc hd
  simp [writeBitShape, Leads, Link.replay, Link.after, orderly, Link.allows, windowEdges, windowAfter]

theorem latched_writeBitShape (l : Link) (v : Bit) (hd : l.dataDir = .out) :
    latched l (writeBitShape v) = [v] := by
  simp [writeBitShape, latched, Link.latches, Link.after, Link.wireData, hd]

theorem leads_readBitShape (l : Link) (b : Bit) (hc : l.clk = false) (hd : l.dataDir = .inp) :
    Leads l (readBitShape b) l := by
  obtain ⟨c, d, o, r⟩ := l
  simp only at hc hd
  subst hc hd
  simp [readBitShape, Leads, Link.replay, Link.after, orderly, Link.allows, windowEdges, windowAfter]

theorem latched_readBitShape (l : Link) (b : Bit) (hd : l.dataDir = .inp) :
    latched l (readBitShape b) = [] := by
  simp [readBitShape, latched, Link.latches, Link.after, Link.wireData, hd]

/-! ### Shapes of bytes -/

theorem length_writeByteShape (x : Byte) : (writeByteShape x).length = 40 := rfl

theorem length_readByteShape (x : Byte) : (readByteShape x).length = 41 := rfl

theorem risingEdges_writeByteShape (x : Byte) : risingEdges (writeByteShape x) = 8 := by
  simp [writeByteShape, bitsMsbFirst, writeBitShape, risingEdges]

theorem risingEdges_readByteShape (x : Byte) : risingEdges (readByteShape x) = 8 := by
  simp [readByteShape, bitsMsbFirst, readBitShape, risingEdges]

theorem leastDuration_writeByteShape (time : Delay → Real) (x : Byte) :
    leastDuration time (writeByteShape x) = 16 * time .tHalf := by
  simp [writeByteShape, bitsMsbFirst, writeBitShape, leastDuration]
  ring

theorem leastDuration_readByteShape (time : Delay → Real) (x : Byte) :
    leastDuration time (readByteShape x) = time .tPre + 16 * time .tHalf := by
  simp [readByteShape, bitsMsbFirst, readBitShape, leastDuration]
  ring

theorem sampled_writeByteShape (x : Byte) : sampled (writeByteShape x) = [] := by
  simp [writeByteShape, bitsMsbFirst, writeBitShape, sampled]

theorem sampled_readByteShape (x : Byte) : sampled (readByteShape x) = bitsMsbFirst x := by
  simp [readByteShape, bitsMsbFirst, readBitShape, sampled]

theorem leads_bits_out (bits : List Bit) (l : Link) (hc : l.clk = false) (hd : l.dataDir = .out) :
    Leads l (bits.flatMap writeBitShape) { l with dataOut := bits.getLastD l.dataOut } ∧
      latched l (bits.flatMap writeBitShape) = bits := by
  induction bits generalizing l with
  | nil => exact ⟨Leads.refl l, rfl⟩
  | cons b bits ih =>
    have h1 := leads_writeBitShape l b hc hd
    have h2 := ih { l with dataOut := b } hc hd
    rw [List.flatMap_cons, latched_append, h1.1, h2.2, latched_writeBitShape l b hd]
    refine ⟨?_, rfl⟩
    have h3 := h1.append h2.1
    rwa [List.getLastD_cons]

theorem leads_writeByteShape (l : Link) (x : Byte) (hc : l.clk = false) (hd : l.dataDir = .out) :
    Leads l (writeByteShape x) { l with dataOut := x.getLsbD 0 } :=
  (leads_bits_out (bitsMsbFirst x) l hc hd).1

theorem latched_writeByteShape (l : Link) (x : Byte) (hc : l.clk = false) (hd : l.dataDir = .out) :
    latched l (writeByteShape x) = bitsMsbFirst x :=
  (leads_bits_out (bitsMsbFirst x) l hc hd).2

theorem leads_bits_inp (bits : List Bit) (l : Link) (hc : l.clk = false) (hd : l.dataDir = .inp) :
    Leads l (bits.flatMap readBitShape) l ∧ latched l (bits.flatMap readBitShape) = [] := by
  induction bits with
  | nil => exact ⟨Leads.refl l, rfl⟩
  | cons b bits ih =>
    have h1 := leads_readBitShape l b hc hd
    rw [List.flatMap_cons, latched_append, h1.1, ih.2, latched_readBitShape l b hd]
    exact ⟨h1.append ih.1, rfl⟩

theorem leads_wait (l : Link) (t : Delay) : Leads l [.wait t] l := by
  simp [Leads, Link.replay, Link.after, orderly, Link.allows, windowEdges, windowAfter]

theorem leads_readByteShape (l : Link) (x : Byte) (hc : l.clk = false) (hd : l.dataDir = .inp) :
    Leads l (readByteShape x) l ∧ latched l (readByteShape x) = [] := by
  have h := leads_bits_inp (bitsMsbFirst x) l hc hd
  exact ⟨(leads_wait l .tPre).append h.1, by simpa [readByteShape, latched, Link.latches, Link.after] using h.2⟩

/-! ### Shapes of frames -/

theorem leads_bytes_out (bytes : List Byte) (l : Link) (hc : l.clk = false) (hd : l.dataDir = .out) :
    Leads l (bytes.flatMap writeByteShape)
        { l with dataOut := if bytes = [] then l.dataOut else (bytes.getLastD 0).getLsbD 0 } ∧
      latched l (bytes.flatMap writeByteShape) = bytes.flatMap bitsMsbFirst := by
  induction bytes generalizing l with
  | nil => exact ⟨Leads.refl l, rfl⟩
  | cons x bytes ih =>
    have h1 := leads_writeByteShape l x hc hd
    have h2 := ih { l with dataOut := x.getLsbD 0 } hc hd
    rw [List.flatMap_cons, List.flatMap_cons, latched_append, h1.1, h2.2, latched_writeByteShape l x hc hd]
    refine ⟨?_, rfl⟩
    have h3 := h1.append h2.1
    cases bytes with
    | nil => simpa using h3
    | cons y ys => simpa [List.getLastD_cons] using h3

theorem leads_bytes_inp (bytes : List Byte) (l : Link) (hc : l.clk = false) (hd : l.dataDir = .inp) :
    Leads l (bytes.flatMap readByteShape) l ∧ latched l (bytes.flatMap readByteShape) = [] := by
  induction bytes with
  | nil => exact ⟨Leads.refl l, rfl⟩
  | cons b bytes ih =>
    have h1 := leads_readByteShape l b hc hd
    rw [List.flatMap_cons, latched_append, h1.1.1, ih.2, h1.2]
    exact ⟨h1.1.append ih.1, rfl⟩

theorem risingEdges_bytes_out (bytes : List Byte) :
    risingEdges (bytes.flatMap writeByteShape) = 8 * bytes.length := by
  induction bytes with
  | nil => rfl
  | cons x xs ih => simp only [List.flatMap_cons, risingEdges_append, risingEdges_writeByteShape, ih, List.length_cons]; omega

theorem risingEdges_bytes_inp (bytes : List Byte) :
    risingEdges (bytes.flatMap readByteShape) = 8 * bytes.length := by
  induction bytes with
  | nil => rfl
  | cons x xs ih => simp only [List.flatMap_cons, risingEdges_append, risingEdges_readByteShape, ih, List.length_cons]; omega

theorem length_bytes_out (bytes : List Byte) : (bytes.flatMap writeByteShape).length = 40 * bytes.length := by
  induction bytes with
  | nil => rfl
  | cons x xs ih => simp only [List.flatMap_cons, List.length_append, length_writeByteShape, ih, List.length_cons]; omega

theorem length_bytes_inp (bytes : List Byte) : (bytes.flatMap readByteShape).length = 41 * bytes.length := by
  induction bytes with
  | nil => rfl
  | cons x xs ih => simp only [List.flatMap_cons, List.length_append, length_readByteShape, ih, List.length_cons]; omega

theorem leastDuration_bytes_out (time : Delay → Real) (bytes : List Byte) :
    leastDuration time (bytes.flatMap writeByteShape) = 16 * bytes.length * time .tHalf := by
  induction bytes with
  | nil => simp [leastDuration]
  | cons x xs ih =>
    simp only [List.flatMap_cons, leastDuration_append, leastDuration_writeByteShape, ih, List.length_cons]
    push_cast
    ring

theorem leastDuration_bytes_inp (time : Delay → Real) (bytes : List Byte) :
    leastDuration time (bytes.flatMap readByteShape) =
      bytes.length * time .tPre + 16 * bytes.length * time .tHalf := by
  induction bytes with
  | nil => simp [leastDuration]
  | cons x xs ih =>
    simp only [List.flatMap_cons, leastDuration_append, leastDuration_readByteShape, ih, List.length_cons]
    push_cast
    ring

/-- A direction switch with its wait, where it switches (R120). -/
theorem leastDuration_dirShape (time : Delay → Real) (was d : Dir) :
    leastDuration time (dirShape was d) = if was = d then 0 else time .tDir := by
  unfold dirShape
  split <;> simp [leastDuration]

/-- The least duration of a whole exchange from either direction (R142). -/
theorem leastDuration_exchangeShape (time : Delay → Real) (was : Dir) (sent resp : List Byte) :
    leastDuration time (exchangeShape was sent resp) =
      (if was = .out then 0 else time .tDir) + time .tDir + resp.length * time .tPre +
        16 * (sent.length + resp.length) * time .tHalf := by
  have turn : leastDuration time [.dir .inp, .wait .tDir] = time .tDir := leastDuration_dirShape time .out .inp
  rw [exchangeShape, leastDuration_append, leastDuration_append, leastDuration_append, leastDuration_dirShape,
    leastDuration_bytes_out, turn, leastDuration_bytes_inp]
  ring

theorem sampled_bytes_out (bytes : List Byte) : sampled (bytes.flatMap writeByteShape) = [] := by
  induction bytes with
  | nil => rfl
  | cons x xs ih => rw [List.flatMap_cons, sampled_append, sampled_writeByteShape, ih]; rfl

theorem sampled_bytes_inp (bytes : List Byte) :
    sampled (bytes.flatMap readByteShape) = bytes.flatMap bitsMsbFirst := by
  induction bytes with
  | nil => rfl
  | cons x xs ih => rw [List.flatMap_cons, List.flatMap_cons, sampled_append, sampled_readByteShape, ih]

/-- A whole exchange leads back to a low clock, the line IN and the last sent bit in the latch (R140, R142). -/
theorem leads_exchangeShape (l : Link) (x : Byte) (sent resp : List Byte) (hc : l.clk = false) :
    Leads l (exchangeShape l.dataDir (x :: sent) resp)
      { l with dataDir := .inp, dataOut := ((x :: sent).getLastD 0).getLsbD 0 } := by
  have h1 := leads_dirShape l .out hc
  have h2 := (leads_bytes_out (x :: sent) { l with dataDir := .out } hc rfl).1
  have h3 := leads_dirShape { l with dataDir := .out, dataOut := ((x :: sent).getLastD 0).getLsbD 0 } .inp hc
  have h4 := (leads_bytes_inp resp
    { l with dataDir := .inp, dataOut := ((x :: sent).getLastD 0).getLsbD 0 } hc rfl).1
  exact (h1.append h2).append (h3.append h4)

/-- What the target takes over a whole exchange: the sent bytes, bit 7 first (R61, R64, R65). -/
theorem latched_exchangeShape (l : Link) (x : Byte) (sent resp : List Byte) (hc : l.clk = false) :
    latched l (exchangeShape l.dataDir (x :: sent) resp) = (x :: sent).flatMap bitsMsbFirst := by
  have h1 := leads_dirShape l .out hc
  have h2 := leads_bytes_out (x :: sent) { l with dataDir := .out } hc rfl
  have h3 := leads_dirShape { l with dataDir := .out, dataOut := ((x :: sent).getLastD 0).getLsbD 0 } .inp hc
  have h4 := (leads_bytes_inp resp
    { l with dataDir := .inp, dataOut := ((x :: sent).getLastD 0).getLsbD 0 } hc rfl).2
  have e3 : [Event.dir .inp, .wait .tDir] = dirShape .out .inp := rfl
  rw [exchangeShape, latched_append, latched_append, latched_dirShape, replay_append, h1.1, h2.1.1, h2.2, e3,
    latched_append, latched_dirShape]
  simp only [reduceCtorEq, if_false, List.nil_append]
  rw [show Link.replay _ (dirShape .out .inp) = _ from h3.1, h4, List.append_nil]

theorem sampled_exchangeShape (was : Dir) (sent resp : List Byte) :
    sampled (exchangeShape was sent resp) = resp.flatMap bitsMsbFirst := by
  rw [exchangeShape, sampled_append, sampled_append, sampled_dirShape, sampled_bytes_out, sampled_append,
    sampled_bytes_inp]
  rfl

theorem risingEdges_exchangeShape (was : Dir) (sent resp : List Byte) :
    risingEdges (exchangeShape was sent resp) = 8 * (sent.length + resp.length) := by
  have h : risingEdges (dirShape was .out) = 0 := by cases was <;> simp [dirShape, risingEdges]
  rw [exchangeShape, risingEdges_append, risingEdges_append, h, risingEdges_bytes_out, risingEdges_append,
    risingEdges_bytes_inp]
  simp [risingEdges]
  omega

/-! ### Entering debug mode -/

theorem leads_entryShape (l : Link) (hc : l.clk = false) (hr : l.resetN = true) : Leads l entryShape l := by
  obtain ⟨c, d, o, r⟩ := l
  simp only at hc hr
  subst hc hr
  simp [entryShape, pulseShape, Leads, Link.replay, Link.after, orderly, Link.allows, windowEdges, windowAfter]

theorem windowEdges_entryShape : windowEdges none entryShape = [2] := by decide

theorem sampled_entryShape : sampled entryShape = [] := by decide

/-! ### Operations as moves of the wire -/

/-- `s` became `t` by events alone as far as the wire goes: the trace grew by events that lead from the levels of `s` to
those of `t` (where `s` is at rest), and every sample among them is the target's next answer (R12, R80). -/
def Moved (s t : State) : Prop :=
  ∃ (evs : List Event) (n : Nat),
    t.trace = s.trace ++ evs ∧ t.samples = s.samples + n ∧ t.answers = s.answers ∧
      sampled evs = (List.range n).map s.upcoming ∧ (LinkAtRest s → Leads s.link evs t.link ∧ LinkAtRest t)

theorem Moved.refl (s : State) : Moved s s :=
  ⟨[], 0, by simp, rfl, rfl, rfl, fun h => ⟨Leads.refl _, h⟩⟩

theorem Moved.trans {s t u : State} (h : Moved s t) (g : Moved t u) : Moved s u := by
  obtain ⟨a, n, h1, h2, h3, h4, h5⟩ := h
  obtain ⟨b, m, g1, g2, g3, g4, g5⟩ := g
  refine ⟨a ++ b, n + m, by rw [g1, h1, List.append_assoc], by rw [g2, h2, Nat.add_assoc], g3.trans h3, ?_,
    fun r => ⟨(h5 r).1.append (g5 (h5 r).2).1, (g5 (h5 r).2).2⟩⟩
  have hu : ∀ j, t.upcoming j = s.upcoming (n + j) := fun j => by
    simp only [State.upcoming, h2, h3, Nat.add_assoc]
  rw [sampled_append, h4, g4, List.range_add, List.map_append, List.map_map]
  congr 1
  exact List.map_congr_left fun j _ => hu j

/-- Only the trace, the link, the sample counter and the answers matter. -/
theorem Moved.congr {s t u : State} (h : Moved s t) (h1 : u.trace = t.trace) (h2 : u.link = t.link)
    (h3 : u.samples = t.samples) (h4 : u.answers = t.answers) : Moved s u := by
  obtain ⟨a, n, g1, g2, g3, g4, g5⟩ := h
  refine ⟨a, n, h1.trans g1, h3.trans g2, h4.trans g3, g4, ?_⟩
  rw [LinkAtRest, LinkAtRest, h2]
  exact g5

/-- A move of the wire whose events lead where it says, and whose samples are the next answers. -/
theorem moved_onWire (s : State) (l : Link) (evs : List Event) (n : Nat)
    (hs : sampled evs = (List.range n).map s.upcoming) (hl : LinkAtRest s → Leads s.link evs l)
    (hr : LinkAtRest s → l.clk = false ∧ l.resetN = true) : Moved s (s.onWire l evs n) :=
  ⟨evs, n, rfl, rfl, rfl, hs, fun r => ⟨hl r, hr r⟩⟩

theorem moved_setDir (d : Dir) (s : State) : Moved s (setDir d s) := by
  rw [setDir_eq]
  exact moved_onWire _ _ _ _ (sampled_dirShape _ _) (fun r => leads_dirShape _ _ r.1) fun r => r

theorem moved_pulseClock (s : State) : Moved s (pulseClock s) := by
  rw [pulseClock_eq]
  refine moved_onWire _ _ _ _ rfl (fun r => ?_) fun r => ⟨rfl, r.2⟩
  rw [← r.1]
  exact leads_pulseShape _ r.1

theorem moved_writeBit (v : Bit) (s : State) (hd : s.link.dataDir = .out) : Moved s (writeBit v s) := by
  rw [writeBit_eq]
  refine moved_onWire _ _ _ _ rfl (fun r => ?_) fun r => ⟨rfl, r.2⟩
  rw [← r.1]
  exact leads_writeBitShape _ v r.1 hd

theorem moved_readBit (s : State) (hd : s.link.dataDir = .inp) : Moved s (readBit s).2 := by
  rw [readBit_snd]
  refine moved_onWire _ _ _ _ rfl (fun r => ?_) fun r => ⟨rfl, r.2⟩
  rw [← r.1]
  exact leads_readBitShape _ _ r.1 hd

theorem moved_writeByte (x : Byte) (s : State) (hd : s.link.dataDir = .out) : Moved s (writeByte x s) := by
  rw [writeByte_eq]
  refine moved_onWire _ _ _ _ (sampled_writeByteShape x) (fun r => ?_) fun r => ⟨rfl, r.2⟩
  rw [← r.1]
  exact leads_writeByteShape _ x r.1 hd

/-- The bits of the next `n` bytes are the next `8 n` answers (R81, R125). -/
theorem bits_upcomingBytes (s : State) (n : Nat) :
    (s.upcomingBytes n).flatMap bitsMsbFirst = (List.range (8 * n)).map s.upcoming := by
  induction n with
  | zero => rfl
  | succ n ih =>
    have h : s.upcomingBytes (n + 1) = s.upcomingBytes n ++ [s.upcomingByte (8 * n)] := by
      simp [State.upcomingBytes, List.range_succ]
    rw [h, List.flatMap_append, ih, Nat.mul_succ, List.range_add, List.map_append]
    simp [bitsMsbFirst_upcomingByte, List.range, List.range.loop]

theorem moved_readByte (s : State) (hd : s.link.dataDir = .inp) : Moved s (readByte s).2 := by
  rw [readByte_snd]
  refine moved_onWire _ _ _ _ ?_ (fun r => ?_) fun r => ⟨rfl, r.2⟩
  · rw [sampled_readByteShape]
    simpa [State.upcomingBytes, List.range, List.range.loop] using bits_upcomingBytes s 1
  · rw [← r.1]
    exact (leads_readByteShape _ _ r.1 hd).1

/-- Every exchange that has a response moves the wire and leaves it at rest (R140, R142). -/
theorem moved_exchange (r : CmdRecord) (s : State) (h : 0 < r.nresp.val) : Moved s (exchange r s) := by
  rw [exchange_eq r s h]
  refine (moved_onWire s
    { s.link with
      dataDir := .inp, dataOut := ((r.opcode :: s.reqBytes r.nreq.val).getLastD 0).getLsbD 0, clk := false }
    (exchangeShape s.link.dataDir (r.opcode :: s.reqBytes r.nreq.val) (s.upcomingBytes r.nresp.val))
    (8 * r.nresp.val) ?_ (fun q => ?_) fun q => ⟨rfl, q.2⟩).congr rfl rfl rfl rfl
  · rw [sampled_exchangeShape, bits_upcomingBytes]
  · rw [← q.1]
    exact leads_exchangeShape _ _ _ _ q.1

/-- One attempt moves the wire and leaves it at rest (R184). -/
theorem moved_attempt (s : State) : Moved s (attempt s) := by
  rw [attempt_eq]
  refine (moved_onWire s { clk := false, dataDir := .inp, dataOut := false, resetN := true }
    (attemptShape s.link.dataDir (s.upcomingByte 0) (s.upcomingByte 8)) 16 ?_ (fun q => ?_)
    fun q => ⟨rfl, rfl⟩).congr rfl rfl rfl rfl
  · rw [attemptShape, sampled_append, sampled_entryShape, sampled_exchangeShape, List.nil_append]
    exact bits_upcomingBytes s 2
  · obtain ⟨qc, qr⟩ := q
    have h := (leads_entryShape s.link qc qr).append
      (leads_exchangeShape s.link 0x68 [] [s.upcomingByte 0, s.upcomingByte 8] qc)
    rwa [qc, qr] at h

/-- One checked status read moves the wire and leaves it at rest (R188). -/
theorem moved_readStatusChecked (s : State) : Moved s (readStatusChecked s).state := by
  have h : Moved s (latchStatus (exchange Cmd.readStatus s)) :=
    (moved_exchange Cmd.readStatus s (by decide)).congr rfl rfl rfl rfl
  rw [readStatusChecked]
  cases debugLocked (latchStatus (exchange Cmd.readStatus s)).status with
  | true => exact h.congr rfl rfl rfl rfl
  | false => exact h

/-- HALT moves the wire and leaves it at rest (R190). -/
theorem moved_issueHalt (s : State) : Moved s (issueHalt s) :=
  ((Moved.refl s).congr (u := setGate .gateHalt s) rfl rfl rfl rfl).trans
    ((moved_exchange Cmd.halt _ (by decide)).congr rfl rfl rfl rfl)

end Sys2Proof.Machine
end

