-- ==== Sys2Proof/Laws/Step.lean ====
section
/-! SUPPORT. What a step can do, said once: `exec_next` for the instructions, `runCall_next` for every call and
`step_next` for the step; and the closed outcomes of `attach` and `gate`. -/

namespace Sys2Proof.Machine

/-! ### Preconditions -/

theorem whenOpen_next {s t : State} {k : Host.Outcome State Fault Refusal} (h : whenOpen s k = .next t) :
    s.session = .opened ∧ k = .next t := by
  unfold whenOpen at h
  split at h
  · exact ⟨‹_›, h⟩
  · cases h

theorem whenClockLow_next {s t : State} {k : Host.Outcome State Fault Refusal} (h : whenClockLow s k = .next t) :
    s.link.clk = false ∧ k = .next t := by
  unfold whenClockLow at h
  split at h
  · cases h
  · next hc => exact ⟨Bool.eq_false_iff.2 hc, h⟩

theorem whenDir_next {d : Dir} {s t : State} {k : Host.Outcome State Fault Refusal}
    (h : whenDir d s k = .next t) : s.link.dataDir = d ∧ k = .next t := by
  unfold whenDir at h
  split at h
  · exact ⟨‹_›, h⟩
  · cases h

/-- Driving a low clock low changes nothing. -/
theorem link_clk_low {l : Link} (h : l.clk = false) : { l with clk := false } = l := by
  cases l
  simp_all

/-! ### Instructions -/

/-- Every instruction is the exchange of its own frame (R140, R210). -/
theorem exec_eq_xchg (i : Instr) (s : State) : exec i s = xchg i.record.opcode (wireBytes i).tail s := by
  cases i <;> rfl

theorem wireBytes_eq (i : Instr) : wireBytes i = i.record.opcode :: (wireBytes i).tail := by
  cases i <;> rfl

theorem lookup_record (i : Instr) : cmdLookup i.record.opcode = some i.record := by
  cases i <;> rfl

theorem length_request (i : Instr) : (wireBytes i).tail.length = i.record.nreq.val := by
  cases i <;> rfl

theorem nresp_record (i : Instr) : i.record.nresp.val = 1 ∨ i.record.nresp.val = 2 := by
  cases i <;> first | exact .inl rfl | exact .inr rfl

theorem nresp_record_pos (i : Instr) : 0 < i.record.nresp.val := by
  rcases nresp_record i with h | h <;> omega

/-- Where an instruction completes, and what it leaves (R140): an open session and a low clock, nothing else. -/
theorem exec_ready (i : Instr) (s : State) (ho : s.session = .opened) (hc : s.link.clk = false) :
    exec i s = .next (s.commanded i.record (wireBytes i).tail) := by
  rw [exec_eq_xchg]
  exact xchg_eq _ _ _ _ (lookup_record i) (length_request i) (nresp_record_pos i) ho hc

/-- If an instruction answers a next state, this is it. -/
theorem exec_next {i : Instr} {s t : State} (h : exec i s = .next t) :
    s.session = .opened ∧ s.link.clk = false ∧ t = s.commanded i.record (wireBytes i).tail := by
  have h' := h
  rw [exec_eq_xchg] at h
  obtain ⟨ho, h⟩ := whenOpen_next h
  simp only [lookup_record, length_request, if_true] at h
  obtain ⟨hc, -⟩ := whenClockLow_next h
  rw [exec_ready i s ho hc] at h'
  exact ⟨ho, hc, by injection h' with h'; exact h'.symm⟩

/-- The request bytes an instruction loads are the ones it sends. -/
theorem reqBytes_loadReq (i : Instr) (s : State) :
    (loadReq (wireBytes i).tail s).reqBytes i.record.nreq.val = (wireBytes i).tail := by
  cases i <;> rfl

/-- A completed instruction's trace (R142). -/
theorem trace_commanded (i : Instr) (s : State) :
    (s.commanded i.record (wireBytes i).tail).trace =
      s.trace ++ exchangeShape s.link.dataDir (wireBytes i) (s.upcomingBytes i.record.nresp.val) := by
  simp only [State.commanded, State.exchanged, reqBytes_loadReq, ← wireBytes_eq]
  rfl

/-- A completed instruction's link (R140). -/
theorem link_commanded (i : Instr) (s : State) :
    (s.commanded i.record (wireBytes i).tail).link =
      { s.link with dataDir := .inp, dataOut := ((wireBytes i).getLastD 0).getLsbD 0, clk := false } := by
  simp only [State.commanded, State.exchanged, reqBytes_loadReq, ← wireBytes_eq]
  rfl

/-! ### Calls -/

/-- A byte form that answers a next state is an instruction's (R141, R210). -/
theorem runBytes_next {sp : Space} {bytes : List Byte} {s t : State} (h : runBytes sp bytes s = .next t) :
    ∃ i, decodeWhole sp bytes = .ok i ∧ exec i s = .next t := by
  unfold runBytes at h
  split at h
  · exact ⟨_, ‹_›, h⟩
  · cases h

/-- What a call that answers a next state has done. -/
theorem runCall_next {c : Call} {s t : State} (h : runCall c s = .next t) :
    (∃ i, ((∃ op req, c = .exchange op req) ∨ ∃ p, c = .remote p) ∧ exec i s = .next t) ∨
    (∃ d, c = .setDir d ∧ s.session = .opened ∧ t = returning .nothing (setDir d s)) ∨
    (c = .pulseClock ∧ s.session = .opened ∧ s.link.clk = false ∧ t = returning .nothing (pulseClock s)) ∨
    (∃ v, c = .writeBit v ∧ s.session = .opened ∧ s.link.dataDir = .out ∧ s.link.clk = false ∧
      t = returning .nothing (writeBit v s)) ∨
    (c = .readBit ∧ s.session = .opened ∧ s.link.dataDir = .inp ∧ s.link.clk = false ∧
      t = returning (.bit (readBit s).1) (readBit s).2) ∨
    (∃ x, c = .writeByte x ∧ s.session = .opened ∧ s.link.dataDir = .out ∧ s.link.clk = false ∧
      t = returning .nothing (writeByte x s)) ∨
    (c = .readByte ∧ s.session = .opened ∧ s.link.dataDir = .inp ∧ s.link.clk = false ∧
      t = returning (.byte (readByte s).1) (readByte s).2) ∨
    (c = .attach ∧ callAttach Config.sequencing s = .next t) ∨
    (c = .gate ∧ callGate Config.sequencing s = .next t) ∨
    (c = .reset ∧ t = resetBlock s) := by
  cases c with
  | exchange op req =>
    obtain ⟨i, -, hi⟩ := runBytes_next h
    exact .inl ⟨i, .inl ⟨op, req, rfl⟩, hi⟩
  | remote p =>
    obtain ⟨i, -, hi⟩ := runBytes_next h
    exact .inl ⟨i, .inr ⟨p, rfl⟩, hi⟩
  | setDir d =>
    obtain ⟨ho, h⟩ := whenOpen_next h
    injection h with h
    exact .inr (.inl ⟨d, rfl, ho, h.symm⟩)
  | pulseClock =>
    obtain ⟨ho, h⟩ := whenOpen_next h
    obtain ⟨hc, h⟩ := whenClockLow_next h
    injection h with h
    exact .inr (.inr (.inl ⟨rfl, ho, hc, h.symm⟩))
  | writeBit v =>
    obtain ⟨ho, h⟩ := whenOpen_next h
    obtain ⟨hd, h⟩ := whenDir_next h
    obtain ⟨hc, h⟩ := whenClockLow_next h
    injection h with h
    exact .inr (.inr (.inr (.inl ⟨v, rfl, ho, hd, hc, h.symm⟩)))
  | readBit =>
    obtain ⟨ho, h⟩ := whenOpen_next h
    obtain ⟨hd, h⟩ := whenDir_next h
    obtain ⟨hc, h⟩ := whenClockLow_next h
    injection h with h
    exact .inr (.inr (.inr (.inr (.inl ⟨rfl, ho, hd, hc, h.symm⟩))))
  | writeByte x =>
    obtain ⟨ho, h⟩ := whenOpen_next h
    obtain ⟨hd, h⟩ := whenDir_next h
    obtain ⟨hc, h⟩ := whenClockLow_next h
    injection h with h
    exact .inr (.inr (.inr (.inr (.inr (.inl ⟨x, rfl, ho, hd, hc, h.symm⟩)))))
  | readByte =>
    obtain ⟨ho, h⟩ := whenOpen_next h
    obtain ⟨hd, h⟩ := whenDir_next h
    obtain ⟨hc, h⟩ := whenClockLow_next h
    injection h with h
    exact .inr (.inr (.inr (.inr (.inr (.inr (.inl ⟨rfl, ho, hd, hc, h.symm⟩))))))
  | attach => exact .inr (.inr (.inr (.inr (.inr (.inr (.inr (.inl ⟨rfl, h⟩)))))))
  | gate => exact .inr (.inr (.inr (.inr (.inr (.inr (.inr (.inr (.inl ⟨rfl, h⟩))))))))
  | reset =>
    injection h with h
    exact .inr (.inr (.inr (.inr (.inr (.inr (.inr (.inr (.inr ⟨rfl, h.symm⟩))))))))

/-- A step does nothing, or runs the oldest call (R261, D1). -/
theorem step_next {s t : State} (h : step s = .next t) :
    (s.calls = [] ∧ t = s) ∨ ∃ c rest, s.calls = c :: rest ∧ runCall c { s with calls := rest } = .next t := by
  unfold step takeCall at h
  split at h
  · injection h with h
    exact .inl ⟨‹_›, h.symm⟩
  · exact .inr ⟨_, _, ‹_›, h⟩

/-! ### attach and gate -/

theorem callAttach_next {p : Config.Sequencing} {s t : State} (h : callAttach p s = .next t) :
    s.session = .opened ∧ s.seq = .idle ∧ s.link.clk = false ∧ t = returning .nothing (attach p s) := by
  obtain ⟨ho, h⟩ := whenOpen_next h
  split at h
  · obtain ⟨hc, h⟩ := whenClockLow_next h
    injection h with h
    exact ⟨ho, ‹_›, hc, h.symm⟩
  · cases h

theorem callGate_next {p : Config.Sequencing} {s t : State} (h : callGate p s = .next t) :
    s.session = .opened ∧ (s.seq = .verified ∧ s.gate = .gateIdle ∧ s.error = .none) ∧ s.link.clk = false ∧
      t = returning .nothing (gateChecks p s).state := by
  obtain ⟨ho, h⟩ := whenOpen_next h
  split at h
  · obtain ⟨hc, h⟩ := whenClockLow_next h
    injection h with h
    exact ⟨ho, ‹_›, hc, h.symm⟩
  · cases h

/-- A property every pass of the loop establishes holds when the loop ends (R171). -/
theorem attachLoop_induction (p : Config.Sequencing) (P : State → Prop)
    (verified : ∀ s, P s → identityValid (s.upcomingId 0) = true → P (setSeq .verified (attempt s)))
    (failed : ∀ s, P s → identityValid (s.upcomingId 0) = false → P (setSeq .failed (attempt s)))
    (fatal : ∀ s, P s → P (raiseFatal .linkAbsent s)) :
    ∀ (n : Nat) (s : State), P s → P (attachLoop p n s) := by
  intro n
  induction n with
  | zero => exact fun s h => h
  | succ n ih =>
    intro s h
    rw [attachLoop_succ]
    split
    · exact verified s h ‹_›
    · next hv =>
      have hf := failed s h (Bool.eq_false_iff.2 hv)
      split
      · exact fatal _ hf
      · exact ih _ hf

/-- Sequencing of flows: what holds after the first piece, whether it ends or goes on, carries over. -/
theorem andThen_induction (P : State → Prop) (f : Flow) (k : State → Flow) (hf : P f.state)
    (hk : ∀ s, f = .goOn s → P s → P (k s).state) : P (f.andThen k).state := by
  cases f with
  | goOn s => exact hk s rfl hf
  | ended s => exact hf

end Sys2Proof.Machine
end

