-- ==== Sys2Proof/Tests/Slice0.lean ====
section
/-! SUPPORT. The model's own tests: ill-formed invocations refused, every constructor's encoding written out bit by bit
from the spec's tables (30_encoding R92, R99), single steps against the spec's vectors (95_test_vectors), and, for every
statement with hypotheses, a named witness that meets them. -/

set_option maxRecDepth 100000

namespace Sys2Proof.Tests

open Sys2Proof.Machine

/-! ### Well-formedness: one ill-formed term for each check -/

/-- An opcode that has no record: 0x35, one off READ_STATUS (V9). -/
theorem test_wellFormed_unknownOpcode : frameWellFormed 0x35 [] = false := by decide

/-- DEBUG_INSTR base with count 0 has no record (V9). -/
theorem test_wellFormed_debugInstrBase : frameWellFormed 0x54 [] = false := by decide

/-- Too many request bytes: READ_STATUS takes none (V9). -/
theorem test_wellFormed_tooMany : frameWellFormed 0x34 [0x00] = false := by decide

/-- Too few request bytes: DEBUG_INSTR_3 needs three (V9). -/
theorem test_wellFormed_tooFew : frameWellFormed 0x57 [0x90, 0x12] = false := by decide

/-- A payload byte that begins none of the six. -/
theorem test_wellFormed_unknownPayload : payloadWellFormed [0x34] = false := by decide

/-- A payload cut short, one too long, and none at all. -/
theorem test_wellFormed_payloadLength :
    payloadWellFormed [0x90, 0x12] = false ∧ payloadWellFormed [0xE4, 0x00] = false ∧
      payloadWellFormed [] = false := by decide

/-- The calls the spec performs pass. -/
theorem test_wellFormed_accepts :
    frameWellFormed 0x55 [0xE4] = true ∧ payloadWellFormed [0x90, 0x12, 0x34] = true ∧
      Instr.wellFormed (.setPointer 0x1234) = true := by decide

/-! ### Decoding: the opcode bytes of R92, bit 7 first (V10), and the payload bytes of R99; later bytes to the left -/

theorem test_decode_chipErase : decodeTableWord 8 0b00010100 = some .chipErase := by decide
theorem test_decode_wrConfig : decodeTableWord 16 0b10000001_00011101 = some (.wrConfig 0x81) := by decide
theorem test_decode_rdConfig : decodeTableWord 8 0b00100100 = some .rdConfig := by decide
theorem test_decode_getPc : decodeTableWord 8 0b00101000 = some .getPc := by decide
theorem test_decode_readStatus : decodeTableWord 8 0b00110100 = some .readStatus := by decide
theorem test_decode_halt : decodeTableWord 8 0b01000100 = some .halt := by decide
theorem test_decode_resume : decodeTableWord 8 0b01001100 = some .resume := by decide
theorem test_decode_debugInstr1 : decodeTableWord 16 0b11100100_01010101 = some (.debugInstr1 0xE4) := by decide
theorem test_decode_debugInstr2 :
    decodeTableWord 24 0b01011010_01110100_01010110 = some (.debugInstr2 0x74 0x5A) := by decide
theorem test_decode_debugInstr3 :
    decodeTableWord 32 0b00110100_00010010_10010000_01010111 = some (.debugInstr3 0x90 0x12 0x34) := by decide
theorem test_decode_getChipId : decodeTableWord 8 0b01101000 = some .getChipId := by decide
theorem test_decode_setPointer :
    decodeTableWord 24 0b11000000_01111111_10010000 = some (.setPointer 0x7FC0) := by decide
theorem test_decode_clearAccumulator : decodeTableWord 8 0b11100100 = some .clearAccumulator := by decide
theorem test_decode_loadAccumulatorImmediate :
    decodeTableWord 16 0b01011010_01110100 = some (.loadAccumulatorImmediate 0x5A) := by decide
theorem test_decode_readCodeByte : decodeTableWord 8 0b10010011 = some .readCodeByte := by decide
theorem test_decode_incrementPointer : decodeTableWord 8 0b10100011 = some .incrementPointer := by decide
theorem test_decode_writeSpecialRegister :
    decodeTableWord 24 0b00000001_11000110_01110101 = some (.writeSpecialRegister 0xC6 0x01) := by decide

/-- Bytes that begin no row are no instruction: DEBUG_INSTR base 0x54, and 0x5C (V9). -/
theorem test_decode_rejects : decodeTableWord 8 0x54 = none ∧ decodeTableWord 8 0x5C = none := by decide

/-! ### Small states -/

/-- The block after reset, the target's next bytes fixed, these calls pending. -/
def start (bytes : List Byte) (calls : List Call) : State :=
  { State.reset with answers := bytes.flatMap bitsMsbFirst, calls := calls }

/-- The block after `attach` has verified this identity; the trace of that is left out. -/
def verified (id : Half) (bytes : List Byte) (calls : List Call) : State :=
  { start bytes calls with seq := .verified, attempts := 1, chipId := id, held := { Held.reset with chipId := true } }

/-- The parameters of the spec's vectors (V13, V14). -/
def vectorParameters : Config.Sequencing := ⟨3, 50, 0x89⟩

/-- The next state, where there is one. -/
def nextOf : Host.Outcome State Fault Refusal → Option State
  | .next s => some s
  | .fault _ => none
  | .refused _ => none

/-- The refusal, where there is one. -/
def refusalOf : Host.Outcome State Fault Refusal → Option Refusal
  | .next _ => none
  | .fault _ => none
  | .refused r => some r

/-- What a vector of V10 or V15 gives: the bits driven, the events, the pulses, what the caller gets. -/
def wireOf (i : Instr) (bytes : List Byte) : Option (List Bit × Nat × Nat × Returned) :=
  (nextOf (exec i (start bytes []))).map fun t =>
    (latched Link.reset t.trace, t.trace.length, risingEdges t.trace, t.returned)

/-- Bits as the vectors print them. -/
def bits (l : List (Fin 2)) : List Bit := l.map (· == 1)

/-! ### The eleven commands (V10) and the six pseudo-operations (V15), one step each -/

theorem test_chipErase :
    wireOf .chipErase [0x5A] = some (bits [0, 0, 0, 1, 0, 1, 0, 0], 85, 16, .bytes [0x5A]) := by decide

theorem test_wrConfig :
    wireOf (.wrConfig 0xA5) [0x81] =
      some (bits [0, 0, 0, 1, 1, 1, 0, 1, 1, 0, 1, 0, 0, 1, 0, 1], 125, 24, .bytes [0x81]) := by decide

theorem test_rdConfig :
    wireOf .rdConfig [0x01] = some (bits [0, 0, 1, 0, 0, 1, 0, 0], 85, 16, .bytes [0x01]) := by decide

theorem test_getPc :
    wireOf .getPc [0x12, 0x34] = some (bits [0, 0, 1, 0, 1, 0, 0, 0], 126, 24, .bytes [0x12, 0x34]) := by decide

theorem test_readStatus :
    wireOf .readStatus [0x24] = some (bits [0, 0, 1, 1, 0, 1, 0, 0], 85, 16, .bytes [0x24]) := by decide

theorem test_halt :
    wireOf .halt [0xFF] = some (bits [0, 1, 0, 0, 0, 1, 0, 0], 85, 16, .bytes [0xFF]) := by decide

theorem test_resume :
    wireOf .resume [0x00] = some (bits [0, 1, 0, 0, 1, 1, 0, 0], 85, 16, .bytes [0x00]) := by decide

theorem test_debugInstr1 :
    wireOf (.debugInstr1 0xE4) [0x00] =
      some (bits [0, 1, 0, 1, 0, 1, 0, 1, 1, 1, 1, 0, 0, 1, 0, 0], 125, 24, .bytes [0x00]) := by decide

theorem test_debugInstr2 :
    wireOf (.debugInstr2 0x74 0x5A) [0x5A] =
      some (bits [0, 1, 0, 1, 0, 1, 1, 0, 0, 1, 1, 1, 0, 1, 0, 0, 0, 1, 0, 1, 1, 0, 1, 0], 165, 32,
        .bytes [0x5A]) := by decide

theorem test_debugInstr3 :
    wireOf (.debugInstr3 0x90 0x12 0x34) [0xAA] =
      some (bits [0, 1, 0, 1, 0, 1, 1, 1, 1, 0, 0, 1, 0, 0, 0, 0, 0, 0, 0, 1, 0, 0, 1, 0, 0, 0, 1, 1, 0, 1, 0, 0],
        205, 40, .bytes [0xAA]) := by decide

theorem test_getChipId :
    wireOf .getChipId [0x89, 0xA3] = some (bits [0, 1, 1, 0, 1, 0, 0, 0], 126, 24, .bytes [0x89, 0xA3]) := by decide

theorem test_setPointer :
    wireOf (.setPointer 0x7FC0) [0xAA] =
      some ([0x57, 0x90, 0x7F, 0xC0].flatMap bitsMsbFirst, 205, 40, .bytes [0xAA]) := by decide

theorem test_clearAccumulator :
    wireOf .clearAccumulator [0x00] = some ([0x55, 0xE4].flatMap bitsMsbFirst, 125, 24, .bytes [0x00]) := by decide

theorem test_loadAccumulatorImmediate :
    wireOf (.loadAccumulatorImmediate 0x5A) [0x5A] =
      some ([0x56, 0x74, 0x5A].flatMap bitsMsbFirst, 165, 32, .bytes [0x5A]) := by decide

theorem test_readCodeByte :
    wireOf .readCodeByte [0x02] = some ([0x55, 0x93].flatMap bitsMsbFirst, 125, 24, .bytes [0x02]) := by decide

theorem test_incrementPointer :
    wireOf .incrementPointer [0x02] = some ([0x55, 0xA3].flatMap bitsMsbFirst, 125, 24, .bytes [0x02]) := by decide

theorem test_writeSpecialRegister :
    wireOf (.writeSpecialRegister 0xC6 0x00) [0x00] =
      some ([0x57, 0x75, 0xC6, 0x00].flatMap bitsMsbFirst, 205, 40, .bytes [0x00]) := by decide

/-! ### The step, the call-level operations and the sequencer, against V1 to V14 -/

/-- A table word placed with `withFetchWord` is the very next step's instruction. -/
theorem test_step_fetchWord :
    (nextOf (step (State.reset.withFetchWord 24 0b00110100_00010010_10010000))).map
        (fun t => (latched Link.reset t.trace, t.calls)) =
      some ([0x57, 0x90, 0x12, 0x34].flatMap bitsMsbFirst, []) := by decide

/-- V9: the refused exchanges. -/
theorem test_step_refusals :
    refusalOf (step (start [] [.exchange 0x35 []])) = some .noRecord ∧
      refusalOf (step (start [] [.exchange 0x55 [0xE4, 0x00]])) = some .wrongRequestCount ∧
      refusalOf (step (start [] [.exchange 0x57 [0x90, 0x12]])) = some .wrongRequestCount ∧
      refusalOf (step (start [] [.remote [0x34]])) = some .unknownPayload ∧
      refusalOf (step (start [] [.gate])) = some .gateNotReady := by decide

/-- V1. -/
theorem test_pulseClock :
    (nextOf (callPulseClock (start [] []))).map (fun t => (t.trace, t.link.clk)) =
      some ([.clk true, .wait .tHalf, .clk false, .wait .tHalf], false) := by decide

/-- V2, second row: the DATA event is appended although the latch holds the value. -/
theorem test_writeBit :
    (nextOf (callWriteBit true
        { start [] [] with link := { Link.reset with dataDir := .out, dataOut := true } })).map (fun t => t.trace) =
      some [.data true, .clk true, .wait .tHalf, .clk false, .wait .tHalf] := by decide

/-- V2, last row. -/
theorem test_writeBit_inp : refusalOf (callWriteBit false (start [] [])) = some .wrongDirection := by decide

/-- V3, first row. -/
theorem test_readBit :
    (nextOf (callReadBit (start [0x80] []))).map (fun t => (t.trace, t.returned)) =
      some ([.clk true, .wait .tHalf, .sample true, .clk false, .wait .tHalf], .bit true) := by decide

/-- V4, second and third row. -/
theorem test_setDir :
    (nextOf (callSetDir .inp { start [] [] with link := { Link.reset with dataDir := .out, dataOut := true } })).map
        (fun t => (t.trace, t.link.dataOut)) = some ([.dir .inp, .wait .tDir], true) ∧
      (nextOf (callSetDir .inp (start [] []))).map (fun t => t.trace) = some [] := by decide

/-- V5 and V6: bit 7 first, bit 0 left in the latch. -/
theorem test_writeByte :
    (nextOf (callWriteByte 0x01 { start [] [] with link := { Link.reset with dataDir := .out } })).map
        (fun t => (latched { Link.reset with dataDir := .out } t.trace, t.trace.length, t.link.dataOut)) =
      some (bits [0, 0, 0, 0, 0, 0, 0, 1], 40, true) := by decide

/-- V7: the first sample is bit 7. -/
theorem test_readByte :
    (nextOf (callReadByte (start [0x80] []))).map (fun t => (t.trace.length, t.returned)) =
      some (41, .byte 0x80) := by decide

/-- The 85 events of V8. -/
def v8Trace : List Event :=
  let sent : List Event := (bits [0, 0, 1, 1, 0, 1, 0, 0]).flatMap fun b =>
    [.data b, .clk true, .wait .tHalf, .clk false, .wait .tHalf]
  let read : List Event := (bits [0, 0, 1, 0, 0, 1, 0, 0]).flatMap fun b =>
    [.clk true, .wait .tHalf, .sample b, .clk false, .wait .tHalf]
  .dir .out :: .wait .tDir :: sent ++ .dir .inp :: .wait .tDir :: .wait .tPre :: read

/-- V8 in full. -/
theorem test_exchange_v8 :
    (nextOf (exec .readStatus (start [0x24] []))).map (fun t => (t.trace, t.resp0, t.link)) =
      some (v8Trace, 0x24, Link.reset) := by decide

/-- What V13 lists of an attach. -/
def attachOf (bytes : List Byte) : Option (SeqState × ErrorCode × BitVec 2 × Half × Nat × Nat) :=
  (nextOf (callAttach vectorParameters (start bytes []))).map fun t =>
    (t.seq, t.error, t.attempts, t.chipId, t.trace.length, risingEdges t.trace)

/-- V13, second row. -/
theorem test_attach_retry :
    attachOf [0x00, 0x00, 0x89, 0xA3] = some (.verified, .none, 2, 0x89A3, 276, 52) := by decide

/-- V13, fourth row (Scenario D). -/
theorem test_attach_linkAbsent :
    attachOf [0x00, 0x00, 0x00, 0x00, 0xFF, 0xFF] = some (.failed, .linkAbsent, 3, 0xFFFF, 414, 78) := by decide

/-- What V14 lists of a gating. -/
structure GateRow where
  error : ErrorCode
  gate : GateState
  extractOk : Bit
  oscPolls : BitVec 6
  status : Option Byte
  haltResp : Option Byte
  warnFamily : Bit
  deriving DecidableEq, Repr

/-- The row a gating gives. -/
def gateOf (id : Half) (bytes : List Byte) : Option GateRow :=
  (nextOf (callGate vectorParameters (verified id bytes []))).map fun t =>
    ⟨t.error, t.gate, t.extractOk, t.oscPolls, t.statusReading, t.haltRespReading, t.warnFamily⟩

/-- V14, row 1. -/
theorem test_gate_approved :
    gateOf 0x89A3 [0x02, 0x00, 0x22] = some ⟨.none, .approved, true, 0, some 0x22, some 0x00, false⟩ := by decide

/-- V14, row 2 (Scenario B). -/
theorem test_gate_locked :
    gateOf 0x89A3 [0x24] = some ⟨.debugLocked, .gateFatal, false, 0, some 0x24, none, false⟩ := by decide

/-- V14, row 3 (program P4). -/
theorem test_gate_polls :
    gateOf 0x89A3 [0x00, 0x00, 0x02, 0xAA, 0x22] =
      some ⟨.none, .approved, true, 2, some 0x22, some 0xAA, false⟩ := by decide

/-- V14, rows 6 and 11 together (program P5). -/
theorem test_gate_notHalted :
    gateOf 0x1234 [0x02, 0x00, 0x02] =
      some ⟨.haltVerificationFailed, .gateFatal, false, 0, some 0x02, some 0x00, true⟩ := by decide

/-- V14, row 7. -/
theorem test_gate_lockedAtPoll :
    gateOf 0x89A3 [0x00, 0x04] = some ⟨.debugLocked, .gateFatal, false, 1, some 0x04, none, false⟩ := by decide

/-- V14, row 8: the lock before the halt bit. -/
theorem test_gate_lockedAfterHalt :
    gateOf 0x89A3 [0x02, 0x00, 0x26] =
      some ⟨.debugLocked, .gateFatal, false, 0, some 0x26, some 0x00, false⟩ := by decide

/-- V14, row 12: the oscillator bit is not asked for after HALT. -/
theorem test_gate_oscillatorAfterHalt :
    gateOf 0x89A3 [0x02, 0x00, 0x20] = some ⟨.none, .approved, true, 0, some 0x20, some 0x00, false⟩ := by decide

/-- V11: the byte with every bit but the lock, and Scenario B's. -/
theorem test_status :
    debugLocked 0xFB = false ∧ oscillatorStable 0xFB = true ∧ cpuHalted 0x24 = true ∧ debugLocked 0x24 = true ∧
      oscillatorStable 0x24 = false := by decide

/-! ### Witnesses: for each statement with hypotheses, concrete states and operands that meet them all -/

/-- The line OUT, everything else as after reset. -/
def lineOut : State := { State.reset with link := { Link.reset with dataDir := .out } }

/-- A closed session. -/
def closed (calls : List Call) : State := { start [] calls with session := .closed }

/-- The block after an attach that found nothing. -/
def absent (calls : List Call) : State :=
  { start [] calls with
    seq := .failed, attempts := 3, chipId := 0xFFFF, error := .linkAbsent, held := { Held.reset with chipId := true } }

/-- The block after an approved gating. -/
def approved (calls : List Call) : State :=
  { verified 0x89A3 [] calls with
    gate := .approved
    extractOk := true
    status := 0x22
    warnFamily := familyMismatch Config.sequencing.expectedFamily 0x89A3
    held := { Held.reset with chipId := true, status := true, haltResp := true } }

/-- A link stuck at a level for `n` samples, then these bytes; the sequencer in this state. -/
def stuckThen (level : Bit) (n : Nat) (bytes : List Byte) (q : SeqState) : State :=
  { State.reset with answers := List.replicate n level ++ bytes.flatMap bitsMsbFirst, seq := q }

/-- A link stuck at a level for as long as an operation can sample it. -/
def stuck (level : Bit) (q : SeqState) : State := stuckThen level 408 [] q

theorem stuckThen_dead (level : Bit) (n : Nat) (bytes : List Byte) (q : SeqState) :
    (stuckThen level n bytes q).DeadLink level n := by
  intro k hk
  show (List.replicate n level ++ bytes.flatMap bitsMsbFirst).getD (0 + k) _ = level
  rw [Nat.zero_add, List.getD_append _ _ _ _ (by rw [List.length_replicate]; exact hk),
    List.getD_eq_getElem _ _ (by rw [List.length_replicate]; exact hk), List.getElem_replicate]

/-- Eight low samples are an unlocked and unstable status byte. -/
theorem deadLink_unstable (s : State) (n j : Nat) (h : s.DeadLink false n) (hj : 8 * j + 8 ≤ n) :
    s.stillUnstable j := by
  rw [State.stillUnstable, deadLink_upcomingByte h hj]
  decide

/-- A fatal end and a closed session are no obstacle. -/
theorem witness_ResetCallStartsASession :
    (absent [.reset]).calls = .reset :: [] ∧ (absent [.reset]).error = .linkAbsent ∧
      (closed [.reset, .attach]).calls = .reset :: [.attach] ∧ (closed [.reset, .attach]).session = .closed := by decide

theorem witness_CommandSpaceMap :
    (start [] [.exchange 0x35 [], .gate]).calls = .exchange 0x35 [] :: [.gate] ∧ cmdLookup 0x35 = none := by decide

/-- Both spaces; the longest encoding of each. -/
theorem witness_EncodeOfDecode :
    decodeWhole .frame [0x57, 0x90, 0x12, 0x34] = .ok (.debugInstr3 0x90 0x12 0x34) ∧
      decodeWhole .payload [0x90, 0x12, 0x34] = .ok (.setPointer 0x1234) ∧
      decodeWhole .frame [0x44] = .ok .halt := ⟨rfl, rfl, rfl⟩

/-- One state for each clause. -/
theorem witness_StepRunsDecodedInstruction :
    (start [] [.exchange 0x44 []]).calls = .exchange 0x44 [] :: [] ∧ decodeWhole .frame [0x44] = .ok .halt ∧
      (start [] [.remote [0xE4]]).calls = .remote [0xE4] :: [] ∧
      decodeWhole .payload [0xE4] = .ok .clearAccumulator ∧
      decodeTableWord 32 0x34129057 = some (.debugInstr3 0x90 0x12 0x34) ∧
      decodeTableWord 8 0x93 = some .readCodeByte := ⟨rfl, rfl, rfl, rfl, rfl, rfl⟩

/-- One state for each clause. -/
theorem witness_StepRunsOperations :
    State.reset.calls = [] ∧ (start [] [.setDir .out]).calls = .setDir .out :: [] ∧
      (start [] [.pulseClock]).calls = .pulseClock :: [] ∧ (start [] [.writeBit true]).calls = .writeBit true :: [] ∧
      (start [] [.readBit]).calls = .readBit :: [] ∧ (start [] [.writeByte 0xFF]).calls = .writeByte 0xFF :: [] ∧
      (start [] [.readByte]).calls = .readByte :: [] ∧ (start [] [.attach]).calls = .attach :: [] ∧
      (start [] [.gate, .reset]).calls = .gate :: [.reset] := by decide

theorem witness_ClosedSessionRefuses :
    (closed [.attach]).session = .closed ∧ (closed [.attach]).calls = .attach :: [] ∧ Call.attach ≠ .reset := by decide

/-- Both clauses, from either direction. -/
theorem witness_SetDirSwitchesAndWaits :
    State.reset.session = .opened ∧ State.reset.link.dataDir ≠ .out ∧ State.reset.link.dataDir = .inp ∧
      lineOut.session = .opened ∧ lineOut.link.dataDir ≠ .inp ∧ lineOut.link.dataDir = .out := by decide

theorem witness_PulseClockPulses : State.reset.session = .opened ∧ State.reset.link.clk = false := by decide

/-- The performed and the refused clause (both bit and both byte operations: the hypotheses are the same). -/
theorem witness_WriteBitDrivesAndPulses :
    lineOut.session = .opened ∧ lineOut.link.dataDir = .out ∧ lineOut.link.clk = false ∧
      State.reset.session = .opened ∧ State.reset.link.dataDir = .inp := by decide

@[inherit_doc witness_WriteBitDrivesAndPulses]
theorem witness_ReadBitSamplesWhileHigh :
    State.reset.session = .opened ∧ State.reset.link.dataDir = .inp ∧ State.reset.link.clk = false ∧
      lineOut.session = .opened ∧ lineOut.link.dataDir = .out := by decide

@[inherit_doc witness_WriteBitDrivesAndPulses]
theorem witness_WriteByteSendsMsbFirst :
    lineOut.session = .opened ∧ lineOut.link.dataDir = .out ∧ lineOut.link.clk = false ∧
      State.reset.session = .opened ∧ State.reset.link.dataDir = .inp := by decide

@[inherit_doc witness_WriteBitDrivesAndPulses]
theorem witness_ReadByteAssemblesMsbFirst :
    State.reset.session = .opened ∧ State.reset.link.dataDir = .inp ∧ State.reset.link.clk = false ∧
      lineOut.session = .opened ∧ lineOut.link.dataDir = .out := by decide

/-- Every call of the list, with its number of edges, answers a next state from a low clock. -/
theorem witness_BitClockEdges :
    State.reset.link.clk = false ∧ lineOut.link.clk = false ∧
      (∃ t, runCall .pulseClock State.reset = .next t) ∧ (∃ t, runCall (.writeBit true) lineOut = .next t) ∧
      (∃ t, runCall (.writeBit false) lineOut = .next t) ∧ (∃ t, runCall .readBit State.reset = .next t) ∧
      (∃ t, runCall .readByte State.reset = .next t) ∧ (∃ t, runCall (.setDir .out) State.reset = .next t) ∧
      (∃ t, runCall (.writeByte 0x80) lineOut = .next t) ∧
      (Call.readByte, 8) ∈ [(Call.pulseClock, 1), (.writeBit true, 1), (.writeBit false, 1), (.readBit, 1),
        (.readByte, 8)] :=
  ⟨rfl, rfl, ⟨_, rfl⟩, ⟨_, rfl⟩, ⟨_, rfl⟩, ⟨_, rfl⟩, ⟨_, rfl⟩, ⟨_, rfl⟩, ⟨_, rfl⟩, by decide⟩

/-- The state after reset, whatever the operands; the same for the next two statements. -/
theorem witness_CommandsWithoutRequestBytes :
    State.reset.session = .opened ∧ State.reset.link.clk = false := by decide

@[inherit_doc witness_CommandsWithoutRequestBytes]
theorem witness_CommandsWithRequestBytes :
    State.reset.session = .opened ∧ State.reset.link.clk = false := by decide

@[inherit_doc witness_CommandsWithoutRequestBytes]
theorem witness_PseudoOperationsExpand :
    State.reset.session = .opened ∧ State.reset.link.clk = false := by decide

/-- One call for each clause; the counts on both sides of the record's. -/
theorem witness_ExchangeRefusals :
    cmdLookup 0x54 = none ∧ cmdLookup 0x55 = some ⟨0x55, 1, 1⟩ ∧
      (start [] [.exchange 0x54 []]).calls = .exchange 0x54 [] :: [] ∧
      (start [] [.exchange 0x55 []]).calls = .exchange 0x55 [] :: [] ∧ ([] : List Byte).length ≠ 1 ∧
      (start [] [.exchange 0x55 [0xE4]]).calls = .exchange 0x55 [0xE4] :: [] ∧ [0xE4#8].length = 1 ∧
      [0xE4#8, 0x00#8].length ≠ 1 ∧ (start [] [.exchange 0x55 [0xE4]]).session = .opened ∧
      (start [] [.exchange 0x55 [0xE4]]).link.clk = false := by decide

/-- A one-byte and a two-byte response, the longest and the shortest frame. -/
theorem witness_ExchangeTraceShape :
    State.reset.link.dataDir = .inp ∧ (∃ t, exec (.debugInstr3 0 0 0) State.reset = .next t) ∧
      cmdLookup ((wireBytes (.debugInstr3 0 0 0)).headD 0) = some Cmd.debugInstr3 ∧
      (∃ t, exec .getPc State.reset = .next t) ∧ cmdLookup ((wireBytes .getPc).headD 0) = some Cmd.getPc ∧
      (∃ t, exec .clearAccumulator State.reset = .next t) ∧
      cmdLookup ((wireBytes .clearAccumulator).headD 0) = some Cmd.debugInstr1 :=
  ⟨rfl, ⟨_, exec_ready _ _ rfl rfl⟩, rfl, ⟨_, exec_ready _ _ rfl rfl⟩, rfl, ⟨_, exec_ready _ _ rfl rfl⟩, rfl⟩

/-- Every instruction answers a next state after reset, and from a line that is OUT. -/
theorem witness_ExchangeIsHalfDuplex (i : Instr) :
    (∃ t, exec i State.reset = .next t) ∧ ∃ t, exec i lineOut = .next t :=
  ⟨⟨_, exec_ready i _ rfl rfl⟩, ⟨_, exec_ready i _ rfl rfl⟩⟩

@[inherit_doc witness_ExchangeIsHalfDuplex]
theorem witness_TargetTakesTheFrame : ∃ t, exec (.setPointer 0x1234) lineOut = .next t :=
  ⟨_, exec_ready _ _ rfl rfl⟩

@[inherit_doc witness_ExchangeIsHalfDuplex]
theorem witness_CommandsFrame : ∃ t, exec .getChipId (approved []) = .next t := ⟨_, exec_ready _ _ rfl rfl⟩

@[inherit_doc witness_ExchangeIsHalfDuplex]
theorem witness_CommandsDoNotInterpretResponses : ∃ t, exec .readStatus (start [0x24] []) = .next t :=
  ⟨_, exec_ready _ _ rfl rfl⟩

theorem witness_AttemptPhases : State.reset.link.clk = false := rfl

/-- Both parts. -/
theorem witness_AttemptTrace :
    State.reset.link.dataDir = .inp ∧ State.reset.attempts = 0 ∧
      ∃ t, callAttach Config.sequencing State.reset = .next t := ⟨rfl, rfl, ⟨_, rfl⟩⟩

/-- The first, the second and the last attempt of the budget. -/
theorem witness_AttachVerifiesAtFirstValidIdentity :
    State.reset.session = .opened ∧ State.reset.link.clk = false ∧ State.reset.seq = .idle ∧
      State.reset.attempts = 0 ∧ identityValid ((start [0x89, 0xA3] []).upcomingId 0) = true ∧
      (∀ j, j < 1 → identityValid ((start [0, 0, 0x89, 0xA3] []).upcomingId j) = false) ∧
      identityValid ((start [0, 0, 0x89, 0xA3] []).upcomingId 1) = true ∧
      (∀ j, j < 2 → identityValid ((start [0xFF, 0xFF, 0, 0, 0, 1] []).upcomingId j) = false) ∧
      identityValid ((start [0xFF, 0xFF, 0, 0, 0, 1] []).upcomingId 2) = true := by decide

/-- Scenario D. -/
theorem witness_AttachEndsInLinkAbsent :
    State.reset.session = .opened ∧ State.reset.link.clk = false ∧ State.reset.seq = .idle ∧
      State.reset.attempts = 0 ∧ State.reset.error = .none ∧
      ∀ j, j < 3 → identityValid ((start [0, 0, 0, 0, 0xFF, 0xFF] []).upcomingId j) = false := by decide

theorem witness_AttachOutcomeLaw :
    State.reset.session = .opened ∧ State.reset.link.clk = false ∧ State.reset.seq = .idle ∧
      State.reset.attempts = 0 ∧ State.reset.error = .none := by decide

theorem witness_AttachOnlyFromIdle :
    (verified 0x89A3 [] []).session = .opened ∧ (verified 0x89A3 [] []).seq ≠ .idle ∧ (absent []).session = .opened ∧
      (absent []).seq ≠ .idle := by decide

/-- Attach answers a next state after reset. -/
theorem witness_AttachFrame : ∃ t, callAttach Config.sequencing State.reset = .next t := ⟨_, rfl⟩

theorem witness_AttachSendsIdentityReadsOnly :
    State.reset.attempts = 0 ∧ State.reset.link.dataDir = .inp ∧
      ∃ t, callAttach Config.sequencing State.reset = .next t := ⟨rfl, rfl, ⟨_, rfl⟩⟩

/-- What every gating statement asks of the registers, whatever the target will answer. -/
theorem witness_gateReady (bytes : List Byte) :
    (verified 0x89A3 bytes []).session = .opened ∧ (verified 0x89A3 bytes []).link.clk = false ∧
      (verified 0x89A3 bytes []).seq = .verified ∧ (verified 0x89A3 bytes []).gate = .gateIdle ∧
      (verified 0x89A3 bytes []).error = .none ∧ (verified 0x89A3 bytes []).extractOk = false :=
  ⟨rfl, rfl, rfl, rfl, rfl, rfl⟩

/-- No poll (V14 row 1) and two polls (row 3); with `witness_gateReady`. -/
theorem witness_GateApproves :
    (verified 0x89A3 [0x02, 0x00, 0x22] []).stableAfter 0 ∧
      debugLocked ((verified 0x89A3 [0x02, 0x00, 0x22] []).upcomingByte (8 * 2)) = false ∧
      cpuHalted ((verified 0x89A3 [0x02, 0x00, 0x22] []).upcomingByte (8 * 2)) = true ∧
      (verified 0x89A3 [0x00, 0x00, 0x02, 0xAA, 0x22] []).stableAfter 2 ∧
      debugLocked ((verified 0x89A3 [0x00, 0x00, 0x02, 0xAA, 0x22] []).upcomingByte (8 * 4)) = false ∧
      cpuHalted ((verified 0x89A3 [0x00, 0x00, 0x02, 0xAA, 0x22] []).upcomingByte (8 * 4)) = true := by
  unfold State.stableAfter State.stillUnstable
  decide

/-- The last poll of the budget (V14 row 5). -/
theorem witness_GateApproves_lastPoll :
    (stuckThen false 400 [0x02, 0x00, 0x22] .verified).stableAfter 50 ∧
      debugLocked ((stuckThen false 400 [0x02, 0x00, 0x22] .verified).upcomingByte (8 * 52)) = false ∧
      cpuHalted ((stuckThen false 400 [0x02, 0x00, 0x22] .verified).upcomingByte (8 * 52)) = true :=
  ⟨⟨fun j hj => deadLink_unstable _ 400 j (stuckThen_dead false 400 _ .verified) (by omega), by decide, by decide⟩,
    by decide, by decide⟩

/-- The lock at the last poll of the budget. -/
theorem witness_GateEndsLockedBeforeHalt_lastPoll :
    (∀ i, i < 50 → (stuckThen false 400 [0x04] .verified).stillUnstable i) ∧
      debugLocked ((stuckThen false 400 [0x04] .verified).upcomingByte (8 * 50)) = true :=
  ⟨fun i hi => deadLink_unstable _ 400 i (stuckThen_dead false 400 _ .verified) (by omega), by decide⟩

/-- The lock at the first read (row 2) and at a poll (row 7); with `witness_gateReady`. -/
theorem witness_GateEndsLockedBeforeHalt :
    debugLocked ((verified 0x89A3 [0x24] []).upcomingByte (8 * 0)) = true ∧
      (∀ i, i < 1 → (verified 0x89A3 [0x00, 0x04] []).stillUnstable i) ∧
      debugLocked ((verified 0x89A3 [0x00, 0x04] []).upcomingByte (8 * 1)) = true := by
  unfold State.stillUnstable
  decide

/-- Durations R8 allows. -/
theorem witness_GateEndsUnstable_timing : Config.Timing fun _ => 1 :=
  ⟨one_pos, zero_le_one, zero_le_one, zero_le_one, zero_le_one, rfl⟩

/-- A dead link stuck low after Verified. -/
theorem witness_GateEndsUnstable :
    (stuck false .verified).session = .opened ∧ (stuck false .verified).link.clk = false ∧
      (stuck false .verified).seq = .verified ∧ (stuck false .verified).gate = .gateIdle ∧
      (stuck false .verified).error = .none ∧ ∀ j, j < 51 → (stuck false .verified).stillUnstable j :=
  ⟨rfl, rfl, rfl, rfl, rfl,
    fun j hj => deadLink_unstable _ 408 j (stuckThen_dead false 408 [] .verified) (by omega)⟩

/-- The lock (row 8) and the missing halt (row 6) after HALT; with `witness_gateReady`. -/
theorem witness_GateEndsFatalAfterHalt :
    (verified 0x89A3 [0x02, 0x00, 0x26] []).stableAfter 0 ∧
      debugLocked ((verified 0x89A3 [0x02, 0x00, 0x26] []).upcomingByte (8 * 2)) = true ∧
      (verified 0x89A3 [0x02, 0x00, 0x02] []).stableAfter 0 ∧
      cpuHalted ((verified 0x89A3 [0x02, 0x00, 0x02] []).upcomingByte (8 * 2)) = false := by
  unfold State.stableAfter State.stillUnstable
  decide

@[inherit_doc witness_gateReady]
theorem witness_GateOutcomeLaw :
    (verified 0x89A3 [] []).session = .opened ∧ (verified 0x89A3 [] []).link.clk = false ∧
      (verified 0x89A3 [] []).seq = .verified ∧ (verified 0x89A3 [] []).gate = .gateIdle ∧
      (verified 0x89A3 [] []).error = .none ∧ (verified 0x89A3 [] []).extractOk = false := witness_gateReady []

/-- Each disjunct alone, and a gating that ends. -/
theorem witness_GateOnlyOnceFromVerified :
    State.reset.session = .opened ∧ State.reset.seq ≠ .verified ∧ (approved []).session = .opened ∧
      (approved []).gate ≠ .gateIdle ∧ (absent []).error ≠ .none ∧
      (∃ t, callGate Config.sequencing (verified 0x89A3 [] []) = .next t) ∧
      (∃ t, step (approved [.exchange 0x4C []]) = .next t) ∧ (approved [.exchange 0x4C []]).gate ≠ .gateIdle ∧
      ∀ rest, (approved [.exchange 0x4C []]).calls ≠ .reset :: rest :=
  ⟨rfl, nofun, rfl, nofun, nofun, ⟨_, rfl⟩, ⟨_, rfl⟩, nofun, nofun⟩

/-- A gating that ends, under any expected family. -/
theorem witness_FamilyCheckOnlyWarns :
    ∃ t, callGate vectorParameters (verified 0x1234 [0x24] []) = .next t := ⟨_, rfl⟩

@[inherit_doc witness_FamilyCheckOnlyWarns]
theorem witness_GateFrame : ∃ t, callGate Config.sequencing (verified 0x89A3 [0x24] []) = .next t := ⟨_, rfl⟩

@[inherit_doc witness_FamilyCheckOnlyWarns]
theorem witness_GateExchangeBudget :
    ∃ t, callGate Config.sequencing (verified 0x89A3 [0x02, 0x00, 0x22] []) = .next t := ⟨_, rfl⟩

/-- Both levels, for the attach and for the gating. -/
theorem witness_DeadLinkOutcomes (level : Bit) :
    (stuck level .idle).session = .opened ∧ (stuck level .idle).link.clk = false ∧ (stuck level .idle).error = .none ∧
      (stuck level .idle).DeadLink level (8 * 51) ∧ (stuck level .idle).seq = .idle ∧
      (stuck level .idle).attempts = 0 ∧ (stuck level .verified).DeadLink level (8 * 51) ∧
      (stuck level .verified).seq = .verified ∧ (stuck level .verified).gate = .gateIdle :=
  ⟨rfl, rfl, rfl, stuckThen_dead level 408 [] .idle, rfl, rfl, stuckThen_dead level 408 [] .verified, rfl, rfl⟩

/-- A link that echoes an identity's byte, one that echoes 0x00, one that echoes 0xFF. -/
theorem witness_DeadLinkOutcomes_echo :
    (start [0x5A, 0x5A, 0x5A, 0x5A, 0x5A, 0x5A] []).EchoLink 0x5A 6 ∧
      (start [0, 0, 0, 0, 0, 0] []).EchoLink 0x00 6 ∧
      (start [0xFF, 0xFF, 0xFF, 0xFF, 0xFF, 0xFF] []).EchoLink 0xFF 6 ∧ State.reset.session = .opened ∧
      State.reset.link.clk = false ∧ State.reset.seq = .idle ∧ State.reset.attempts = 0 ∧
      State.reset.error = .none := by
  unfold State.EchoLink
  decide

/-- A client's command after a fatal end; a gating and an attach that end fatal, as steps. -/
theorem witness_FatalIsSticky :
    (∃ t, step (absent [.exchange 0x44 []]) = .next t) ∧ (absent [.exchange 0x44 []]).error ≠ .none ∧
      (∀ rest, (absent [.exchange 0x44 []]).calls ≠ .reset :: rest) ∧
      (verified 0x89A3 [0x24] [.gate]).error = .none ∧
      (nextOf (step (verified 0x89A3 [0x24] [.gate]))).map (·.error) = some .debugLocked ∧
      (start [0, 0, 0, 0, 0, 0] [.attach]).error = .none ∧
      (nextOf (step (start [0, 0, 0, 0, 0, 0] [.attach]))).map (·.error) = some .linkAbsent :=
  ⟨⟨_, rfl⟩, nofun, nofun, rfl, by decide, rfl, by decide⟩

theorem absent_consistent (calls : List Call) : RegistersConsistent (absent calls) :=
  ⟨rfl, ⟨rfl, rfl⟩, ⟨rfl, rfl, rfl, rfl, rfl⟩, ⟨rfl, rfl, rfl, .inr rfl⟩, Nat.zero_le _⟩

theorem approved_consistent (calls : List Call) : RegistersConsistent (approved calls) :=
  ⟨rfl, ⟨rfl, rfl⟩, ⟨nofun, rfl, rfl, nofun⟩, 
    ⟨rfl, rfl, rfl, rfl, rfl, (by decide : debugLocked 0x22 = false), (by decide : cpuHalted 0x22 = true), rfl⟩,
    Nat.zero_le _⟩

theorem witness_FatalEndStopsTheSequencer : RegistersConsistent (absent []) ∧ (absent []).error ≠ .none :=
  ⟨absent_consistent [], nofun⟩

/-- A terminal failure, an approved block, each with a command pending. -/
theorem witness_StepKeepsRegistersConsistent :
    (RegistersConsistent (absent [.exchange 0x34 []]) ∧ ∃ t, step (absent [.exchange 0x34 []]) = .next t) ∧
      RegistersConsistent (approved [.remote [0x93]]) ∧ ∃ t, step (approved [.remote [0x93]]) = .next t :=
  ⟨⟨absent_consistent _, _, rfl⟩, approved_consistent _, _, rfl⟩

/-- After reset, with an attach pending. -/
theorem witness_StepKeepsWireConsistent :
    LinkAtRest (start [] [.attach]) ∧ WireConsistent (start [] [.attach]) ∧
      ∃ t, step (start [] [.attach]) = .next t :=
  ⟨⟨rfl, rfl⟩, ⟨rfl, rfl, nofun, rfl⟩, _, rfl⟩

/-- V14 row 1 as a step, and a client's command after an approval. -/
theorem witness_ApprovalMeansVerifiedAndHalted :
    (RegistersConsistent (verified 0x89A3 [0x02, 0x00, 0x22] [.gate]) ∧
        (nextOf (step (verified 0x89A3 [0x02, 0x00, 0x22] [.gate]))).map (·.extractOk) = some true) ∧
      RegistersConsistent (approved [.exchange 0x4C []]) ∧
      (nextOf (step (approved [.exchange 0x4C []]))).map (·.extractOk) = some true :=
  ⟨⟨⟨rfl, ⟨rfl, rfl⟩, ⟨nofun, rfl, rfl, nofun⟩, ⟨rfl, rfl, rfl, .inl rfl⟩, Nat.zero_le _⟩, by decide⟩,
    approved_consistent _, by decide⟩

/-- V14 row 1 as a step. -/
theorem witness_OnlyAnUnlockedGatingApproves :
    (nextOf (step (verified 0x89A3 [0x02, 0x00, 0x22] [.gate]))).map (·.extractOk) = some true ∧
      (verified 0x89A3 [0x02, 0x00, 0x22] [.gate]).extractOk = false := by decide

/-- Both parts: a command from a line that is OUT, and a pulse on a line that is IN. -/
theorem witness_LineIsInBetweenExchanges :
    (start [] [.exchange 0x44 []]).calls = .exchange 0x44 [] :: [] ∧
      (∃ t, step (start [] [.exchange 0x44 []]) = .next t) ∧ (∃ t, step (start [] [.remote [0xE4]]) = .next t) ∧
      (∃ t, step (start [] [.attach]) = .next t) ∧ (∃ t, step (verified 0x89A3 [] [.gate]) = .next t) ∧
      (∃ t, step (start [] [.pulseClock]) = .next t) ∧
      (∀ d rest, (start [] [.pulseClock]).calls ≠ .setDir d :: rest) ∧
      (start [] [.pulseClock]).link.dataDir = .inp :=
  ⟨rfl, ⟨_, rfl⟩, ⟨_, rfl⟩, ⟨_, rfl⟩, ⟨_, rfl⟩, ⟨_, rfl⟩, nofun, rfl⟩

theorem witness_TraceRecordsEverySample :
    (∃ t, step (start [0x81] [.readByte]) = .next t) ∧ ∀ rest, (start [0x81] [.readByte]).calls ≠ .reset :: rest :=
  ⟨⟨_, rfl⟩, nofun⟩

/-- RESUME after an approval: `extract_ok` goes stale (R276). -/
theorem witness_ExtractOkIsNotUpdated :
    (∃ t, step (approved [.exchange 0x4C []]) = .next t) ∧
      ∀ rest, (approved [.exchange 0x4C []]).calls ≠ .gate :: rest ∧
        (approved [.exchange 0x4C []]).calls ≠ .reset :: rest :=
  ⟨⟨_, rfl⟩, fun _ => ⟨nofun, nofun⟩⟩

/-- A native instruction shipped by the client's own command has the pseudo-operation's effect (R155, R157); a status
read ships none; beyond the flash nothing is said of what a code read leaves (R74, U18). -/
theorem test_nativeBytes :
    nativeBytes (.debugInstr1 0xE4) = nativeBytes .clearAccumulator ∧
      nativeBytes (.debugInstr3 0x90 0x12 0x34) = [0x90, 0x12, 0x34] ∧ nativeBytes .readStatus = [] ∧
      nativeBytes .getPc = [] ∧ nativeBytes (.wrConfig 0xE4) = [] := by decide

/-- The discipline sees a code read and a clear in either spelling (R213, R277, V15). -/
theorem test_clientDiscipline :
    allowsRead State.reset (.debugInstr1 0x93) = false ∧ allowsRead State.reset .readCodeByte = false ∧
      allowsRead (approved []) (.debugInstr1 0x93) = true ∧ allowsRead State.reset (.debugInstr2 0x93 0x00) = true ∧
      readsAfterClears [.debugInstr1 0x93] = false ∧ readsAfterClears [.debugInstr1 0xE4, .readCodeByte] = true ∧
      readsAfterClears [.clearAccumulator, .debugInstr1 0x93, .readCodeByte] = false ∧
      readsAfterClears [.clearAccumulator, .incrementPointer, .readCodeByte] = false := by decide

/-- What may clear the lock (R85, R161): the erase exchange and a client's own bits; not a data byte 0x14, not the
sequencer's operations; CHIP_ERASE with a request byte is refused. -/
theorem test_mayErase :
    (Call.exchange 0x14 []).mayErase = true ∧ (Call.exchange 0x14 [0x00]).mayErase = false ∧
      (Call.exchange 0x57 [0x90, 0x14, 0x14]).mayErase = false ∧ (Call.writeByte 0x14).mayErase = true ∧
      Call.attach.mayErase = false ∧ Call.gate.mayErase = false ∧ Call.reset.mayErase = false := by decide

/-- A locked target that met an attach is locked; one that was erased need not be (R85). -/
theorem test_lockKept :
    (⟨0, 0, true, 0⟩ : Target).LockKept ⟨0, 0, true, 0⟩ ∧ ¬(⟨0, 0, true, 0⟩ : Target).LockKept ⟨0, 0, false, 0⟩ ∧
      (⟨0, 0, true, 0⟩ : Target).LockKept ⟨0, 0, false, 1⟩ := by
  unfold Target.LockKept
  decide

/-- Pointer 0xFFFF with accumulator 1: any byte may be read there (R213, U18). -/
theorem test_readBeyondFlash (code : Nat → Byte) (x : Byte) :
    Target.Executes code ⟨0xFFFF, 1, false, 0⟩ ⟨0xFFFF, x, false, 0⟩ .readCodeByte x :=
  (executes_payload rfl).2 ⟨rfl, fun _ h => absurd h (by decide), rfl⟩

/-- Program P6's first three lines: the target the contract asks for exists, and answers AA, 00, 02; the same target
after a client's own clear and load. -/
theorem witness_CodeByteReadUnderContract :
    State.reset.session = .opened ∧ State.reset.link.clk = false ∧
      (0x0000#16).toNat < flashSize ∧ (0x7FFF#16).toNat < flashSize ∧ ¬(0x8000#16).toNat < flashSize ∧
      ∃ (code : Nat → Byte) (t0 t1 t2 t3 : Target) (s1 s2 s3 : State),
        exec (.setPointer 0) (start [0xAA, 0x00, 0x02] []) = .next s1 ∧ exec .clearAccumulator s1 = .next s2 ∧
          exec .readCodeByte s2 = .next s3 ∧ t2.locked = false ∧
          Target.Executes code t0 t1 (.setPointer 0) s1.resp0 ∧
          Target.Executes code t1 t2 .clearAccumulator s2.resp0 ∧
          Target.Executes code t2 t3 .readCodeByte s3.resp0 ∧
          Target.Executes code t1 t2 (.debugInstr1 0xE4) s2.resp0 ∧
          Target.Executes code t2 ⟨0, 0x5A, false, 0⟩ (.debugInstr2 0x74 0x5A) 0x5A :=
  ⟨rfl, rfl, by decide, by decide, by decide, fun a => if a = 0 then 0x02 else 0x00, ⟨0x1234, 0xAA, false, 0⟩,
    ⟨0, 0xAA, false, 0⟩, ⟨0, 0x00, false, 0⟩, ⟨0, 0x02, false, 0⟩, _, _, _, exec_ready _ _ rfl rfl, exec_ready _ _ rfl rfl,
    exec_ready _ _ rfl rfl, rfl,
    (executes_payload rfl).2 ⟨by decide, rfl⟩, (executes_payload rfl).2 ⟨by decide, rfl, rfl⟩,
    (executes_payload rfl).2 ⟨by decide, fun _ _ => by decide, rfl⟩,
    (executes_congr (j := .clearAccumulator) rfl).2 ((executes_payload rfl).2 ⟨by decide, rfl, rfl⟩),
    (executes_congr (j := .loadAccumulatorImmediate 0x5A) rfl).2 ((executes_payload rfl).2 ⟨rfl, rfl, rfl⟩)⟩

/-- The shortest block. -/
theorem witness_BlockReadCounts : 1 ≤ 1 ∧ (blockRead 0x7FC0 1).length = 3 := by decide

end Sys2Proof.Tests
end

section
/-! The reset values of the state (10_state R46), and when a register that may hold no value is read as none (R47). -/

namespace Sys2Proof.Machine

/-! ### Registers that may hold no value (R47) -/

@[simp] theorem State.chipIdReading_eq_none_iff {s : State} :
    s.chipIdReading = none ↔ s.held.chipId = false := by
  simp [State.chipIdReading]

@[simp] theorem State.statusReading_eq_none_iff {s : State} :
    s.statusReading = none ↔ s.held.status = false := by
  simp [State.statusReading]

@[simp] theorem State.haltRespReading_eq_none_iff {s : State} :
    s.haltRespReading = none ↔ s.held.haltResp = false := by
  simp [State.haltRespReading]

/-! ### Reset (R46) -/

/-- The rows of R46 that state no value: nothing is held, so each of these registers is read as none. -/
theorem State.reset_readings :
    State.reset.chipIdReading = none ∧ State.reset.statusReading = none ∧ State.reset.haltRespReading = none :=
  ⟨State.chipIdReading_eq_none_iff.2 rfl, State.statusReading_eq_none_iff.2 rfl,
    State.haltRespReading_eq_none_iff.2 rfl⟩

/-- Settles O1: the rows of R46 with a value are the fields of the reset state; the others are read as none. -/
theorem resetValues : Obligations.ResetValues := by
  obtain ⟨hchip, hstatus, hhalt⟩ := State.reset_readings
  exact ⟨rfl, rfl, rfl, rfl, rfl, rfl, rfl, rfl, rfl, rfl, rfl, rfl, hchip, hstatus, hhalt, rfl, rfl, rfl⟩

end Sys2Proof.Machine
end

section
/-! The command space (30_encoding R73, R92): which opcodes have a record, and what becomes of an exchange without one. -/

namespace Sys2Proof

/-- An opcode value has a record exactly when it is some record's opcode (R91). -/
theorem cmdLookup_isSome_iff {op : Byte} : (cmdLookup op).isSome = true ↔ op ∈ cmdTable.map CmdRecord.opcode := by
  simp [cmdLookup]

namespace Machine

/-- A step whose oldest invocation is an exchange runs its bytes as a frame, the invocation taken off the list. -/
theorem step_of_exchange {s : State} {op : Byte} {req : List Byte} {rest : List Call}
    (hc : s.calls = .exchange op req :: rest) :
    step s = runBytes .frame (op :: req) { s with calls := rest } := by
  simp [step, takeCall, hc, runCall]

/-- Bytes that are no encoding are refused, with the refusal of the decoder's reason (R100, R141). -/
theorem runBytes_of_error {sp : Space} {bytes : List Byte} {e : Reject} (h : decodeWhole sp bytes = .error e)
    (s : State) : runBytes sp bytes s = .refused (refusalOf sp e) := by
  simp [runBytes, h]

/-- An exchange whose opcode has no record is refused for that, in any session (R100). -/
theorem step_of_exchange_unknown {s : State} {op : Byte} {req : List Byte} {rest : List Call}
    (hc : s.calls = .exchange op req :: rest) (hl : cmdLookup op = none) : step s = .refused .noRecord := by
  rw [step_of_exchange hc, runBytes_of_error (decodeWhole_frame_unknown op req hl), refusalOf]

/-- Settles O3: the rows are the table's own, the defined opcodes are the opcodes of those rows, and an exchange with
any other value is no frame the decoder knows. -/
theorem commandSpaceMap : Obligations.CommandSpaceMap :=
  ⟨rfl, fun _ => cmdLookup_isSome_iff, fun _ _ _ _ => step_of_exchange_unknown⟩

end Machine

end Sys2Proof
end

section
/-! Regularities of the command table (30_encoding R93): what the opcode bits of a record say about its counts. -/

namespace Sys2Proof

/-- Opcode bits 1:0 of a record are its request count. -/
theorem opcode_low_bits_of_mem_cmdTable :
    ∀ r ∈ cmdTable, (r.opcode.extractLsb' 0 2).toNat = r.nreq.val := by
  decide

/-- Every record has one response byte or two. -/
theorem nresp_of_mem_cmdTable : ∀ r ∈ cmdTable, r.nresp.val = 1 ∨ r.nresp.val = 2 := by
  decide

/-- Opcode bit 2 of a record is clear exactly when the record has two response bytes. -/
theorem opcode_bit_two_eq_false_iff :
    ∀ r ∈ cmdTable, (r.opcode.getLsbD 2 = false ↔ r.nresp.val = 2) := by
  decide

/-- Opcode bit 2 of a record is set exactly when the record has one response byte: the counts are 1 and 2 only. -/
theorem opcode_bit_two_eq_true_iff {r : CmdRecord} (hr : r ∈ cmdTable) :
    r.opcode.getLsbD 2 = true ↔ r.nresp.val = 1 := by
  have hcount := nresp_of_mem_cmdTable r hr
  rw [← Bool.not_eq_false, opcode_bit_two_eq_false_iff r hr]
  omega

/-- The records with two response bytes are GET_PC and GET_CHIP_ID. -/
theorem nresp_eq_two_iff :
    ∀ r ∈ cmdTable, (r.nresp.val = 2 ↔ r.opcode = 0x28 ∨ r.opcode = 0x68) := by
  decide

/-- Settles O4: each regularity is checked on the eleven records; that bit 2 is set where there is one response byte
follows from where it is clear. -/
theorem tableRegularities : Obligations.TableRegularities := by
  refine ⟨fun r hr => ⟨?_, ?_, ?_, ?_⟩, ?_, ?_⟩
  · exact opcode_low_bits_of_mem_cmdTable r hr
  · exact opcode_bit_two_eq_false_iff r hr
  · exact opcode_bit_two_eq_true_iff hr
  · exact nresp_eq_two_iff r hr
  · rfl
  · decide

end Sys2Proof
end

section
/-! The status byte (30_encoding R96): a field read as a bit is the byte under the field's mask. -/

namespace Sys2Proof.Machine

/-- A bit of a byte is set exactly when the byte under that bit's mask is not zero. -/
theorem getLsbD_eq_mask_ne_zero (st : Byte) {i : Nat} (hi : i < 8) :
    st.getLsbD i = (st &&& BitVec.twoPow 8 i != 0) := by
  have hmask : BitVec.twoPow 8 i ≠ 0#8 := fun h => by
    simpa [hi] using congrArg (·.getLsbD i) h
  rw [BitVec.and_twoPow]
  cases st.getLsbD i <;> simp [hmask]

/-- Settles O9: each of the eight fields is a bit of the byte, so the byte under that bit's mask. -/
theorem statusByteLayout : Obligations.StatusByteLayout := by
  refine ⟨fun st => ?_, by decide⟩
  rw [decodeStatus, StatusFields.mk.injEq]
  have bit {i : Nat} (hi : i < 8) := getLsbD_eq_mask_ne_zero st hi
  exact ⟨bit (i := 7) (by decide), bit (i := 6) (by decide), bit (i := 5) (by decide), bit (i := 4) (by decide),
    bit (i := 3) (by decide), bit (i := 2) (by decide), bit (i := 1) (by decide), bit (i := 0) (by decide)⟩

end Sys2Proof.Machine
end

section
/-! The chip identity (30_encoding R97): its two halves, which identities are invalid, and what the sequencer's identity
read leaves in `chip_id`. -/

namespace Sys2Proof.Machine

@[simp] theorem family_joinBytes (hi lo : Byte) : family (joinBytes hi lo) = hi :=
  BitVec.extractLsb'_append_eq_left

@[simp] theorem revision_joinBytes (hi lo : Byte) : revision (joinBytes hi lo) = lo :=
  BitVec.extractLsb'_append_eq_right

theorem identityValid_eq_false_iff {id : Half} : identityValid id = false ↔ id = 0x0000#16 ∨ id = 0xFFFF#16 := by
  rw [identityValid, Bool.and_eq_false_iff, bne_eq_false_iff_eq, bne_eq_false_iff_eq]

/-- The identity read joins the response bytes of its GET_CHIP_ID, which it leaves as they are (R97, R176). -/
theorem readIdentity_chipId (s : State) :
    (readIdentity s).chipId = joinBytes (readIdentity s).resp0 (readIdentity s).resp1 := by
  rw [readIdentity, latchIdentity_chipId, latchIdentity_resp0, latchIdentity_resp1]

/-- Settles O10: `chip_id` is the join of the two response bytes, of which family and revision are the halves; the
worked values are computed. -/
theorem chipIdentityAssembly : Obligations.ChipIdentityAssembly := by
  refine ⟨fun s => ⟨readIdentity_chipId s, ?_, ?_⟩, fun _ => identityValid_eq_false_iff, by decide⟩
  · rw [readIdentity_chipId, family_joinBytes]
  · rw [readIdentity_chipId, revision_joinBytes]

end Sys2Proof.Machine
end

section
/-! BitClock as a client's calls (40_bitclock R120 to R127): what the preconditions let through, each call in closed
form, and the clock edges a call makes. -/

namespace Sys2Proof.Machine

/-! ### Preconditions that hold, and the one that refuses -/

theorem whenOpen_of_opened {s : State} (k : Host.Outcome State Fault Refusal) (ho : s.session = .opened) :
    whenOpen s k = k := if_pos ho

theorem whenClockLow_of_low {s : State} (k : Host.Outcome State Fault Refusal) (hc : s.link.clk = false) :
    whenClockLow s k = k := if_neg (Bool.eq_false_iff.1 hc)

/-- A bit or byte operation is performed in its own direction, from a low clock (R122 to R125). -/
theorem guards_of_ready {s : State} {d : Dir} (k : Host.Outcome State Fault Refusal) (ho : s.session = .opened)
    (hd : s.link.dataDir = d) (hc : s.link.clk = false) : whenOpen s (whenDir d s (whenClockLow s k)) = k := by
  rw [whenOpen_of_opened _ ho, whenDir, if_pos hd, whenClockLow_of_low _ hc]

/-- A bit or byte operation is refused in the other direction, whatever the clock (R270). -/
theorem guards_of_wrongDirection {s : State} {d : Dir} (k : Host.Outcome State Fault Refusal)
    (ho : s.session = .opened) (hd : s.link.dataDir ≠ d) :
    whenOpen s (whenDir d s (whenClockLow s k)) = .refused .wrongDirection := by
  rw [whenOpen_of_opened _ ho, whenDir, if_neg hd]

/-! ### The calls in closed form -/

/-- `set_dir` writes the direction alone; nothing is written where it is held (R120). -/
theorem callSetDir_eq (d : Dir) {s : State} (ho : s.session = .opened) :
    callSetDir d s = .next (returning .nothing
      (s.onWire { s.link with dataDir := d } (dirShape s.link.dataDir d) 0)) := by
  rw [callSetDir, whenOpen_of_opened _ ho, setDir_eq]

/-- `pulse_clock` ends with the levels it began with (R121). -/
theorem callPulseClock_eq {s : State} (ho : s.session = .opened) (hc : s.link.clk = false) :
    callPulseClock s = .next (returning .nothing (s.onWire s.link pulseShape 0)) := by
  rw [callPulseClock, whenOpen_of_opened _ ho, whenClockLow_of_low _ hc, pulseClock_eq, link_clk_low hc]

/-- `write_bit` leaves its bit in the latch (R122). -/
theorem callWriteBit_eq (v : Bit) {s : State} (ho : s.session = .opened) (hd : s.link.dataDir = .out)
    (hc : s.link.clk = false) :
    callWriteBit v s = .next (returning .nothing (s.onWire { s.link with dataOut := v } (writeBitShape v) 0)) := by
  rw [callWriteBit, guards_of_ready _ ho hd hc, writeBit_eq, link_clk_low (l := { s.link with dataOut := v }) hc]

/-- `read_bit` hands back the target's next answer (R123). -/
theorem callReadBit_eq {s : State} (ho : s.session = .opened) (hd : s.link.dataDir = .inp)
    (hc : s.link.clk = false) :
    callReadBit s =
      .next (returning (.bit (s.upcoming 0)) (s.onWire s.link (readBitShape (s.upcoming 0)) 1)) := by
  rw [callReadBit, guards_of_ready _ ho hd hc, readBit_fst, readBit_snd, link_clk_low hc]

/-- `write_byte` leaves the last bit sent, bit 0, in the latch (R124). -/
theorem callWriteByte_eq (x : Byte) {s : State} (ho : s.session = .opened) (hd : s.link.dataDir = .out)
    (hc : s.link.clk = false) :
    callWriteByte x s =
      .next (returning .nothing (s.onWire { s.link with dataOut := x.getLsbD 0 } (writeByteShape x) 0)) := by
  rw [callWriteByte, guards_of_ready _ ho hd hc, writeByte_eq,
    link_clk_low (l := { s.link with dataOut := x.getLsbD 0 }) hc]

/-- `read_byte` hands back the byte of the target's next eight answers (R125). -/
theorem callReadByte_eq {s : State} (ho : s.session = .opened) (hd : s.link.dataDir = .inp)
    (hc : s.link.clk = false) :
    callReadByte s =
      .next (returning (.byte (s.upcomingByte 0)) (s.onWire s.link (readByteShape (s.upcomingByte 0)) 8)) := by
  rw [callReadByte, guards_of_ready _ ho hd hc, readByte_fst, readByte_snd, link_clk_low hc]

/-! ### The byte a read assembles -/

/-- The bits of the next byte, bit 7 first, are the next eight answers (R125). -/
theorem bitsMsbFirst_upcomingByte_zero (s : State) :
    bitsMsbFirst (s.upcomingByte 0) = (List.range 8).map s.upcoming :=
  bitsMsbFirst_upcomingByte s 0

/-- The first answer is bit 7 of the next byte, the eighth bit 0 (R125, R128). -/
theorem getLsbD_upcomingByte_zero (s : State) {k : Nat} (hk : k < 8) :
    (s.upcomingByte 0).getLsbD (7 - k) = s.upcoming k := by
  have hbits : (List.range 8).map (fun j => (s.upcomingByte 0).getLsbD (7 - j)) = (List.range 8).map s.upcoming :=
    bitsMsbFirst_upcomingByte_zero s
  exact List.map_inj_left.1 hbits k (List.mem_range.2 hk)

/-- The events of a byte read, by the answers it samples (R125). -/
theorem readByteShape_upcomingByte_zero (s : State) :
    readByteShape (s.upcomingByte 0) = .wait .tPre :: (List.range 8).flatMap fun k => readBitShape (s.upcoming k) := by
  rw [readByteShape, bitsMsbFirst_upcomingByte_zero, List.flatMap_map]

/-! ### Clock edges -/

/-- The rising edges of a BitClock operation (R127); none is stated of the other calls. -/
def Call.edges : Call → Option Nat
  | .setDir _ => some 0
  | .pulseClock | .writeBit _ | .readBit => some 1
  | .writeByte _ | .readByte => some 8
  | .exchange _ _ | .remote _ | .attach | .gate | .reset => none

theorem risingEdges_dirShape (was d : Dir) : risingEdges (dirShape was d) = 0 := by
  unfold dirShape
  split <;> simp [risingEdges]

/-- A completed BitClock call is a move of the wire with the call's number of rising edges, to a low clock, RESET_N
kept, and the direction too unless the call is `set_dir` (R127). -/
theorem runCall_edges {c : Call} {n : Nat} {s t : State} (hn : c.edges = some n) (hc : s.link.clk = false)
    (h : runCall c s = .next t) :
    ∃ l evs k r, t = returning r (s.onWire l evs k) ∧ l.clk = false ∧ l.resetN = s.link.resetN ∧
      ((∀ d, c ≠ .setDir d) → l.dataDir = s.link.dataDir) ∧ risingEdges evs = n := by
  rcases runCall_next h with ⟨i, ⟨op, req, rfl⟩ | ⟨p, rfl⟩, -⟩ | ⟨d, rfl, -, rfl⟩ | ⟨rfl, -, -, rfl⟩ |
    ⟨v, rfl, -, -, -, rfl⟩ | ⟨rfl, -, -, -, rfl⟩ | ⟨x, rfl, -, -, -, rfl⟩ | ⟨rfl, -, -, -, rfl⟩ | ⟨rfl, -⟩ |
    ⟨rfl, -⟩ | ⟨rfl, -⟩ <;> cases hn
  · exact ⟨_, _, _, _, congrArg _ (setDir_eq d s), hc, rfl, fun hne => absurd rfl (hne d), risingEdges_dirShape _ d⟩
  · exact ⟨_, _, _, _, congrArg _ (pulseClock_eq s), rfl, rfl, fun _ => rfl, rfl⟩
  · exact ⟨_, _, _, _, congrArg _ (writeBit_eq v s), rfl, rfl, fun _ => rfl, rfl⟩
  · exact ⟨_, _, _, _, congrArg _ (readBit_snd s), rfl, rfl, fun _ => rfl, rfl⟩
  · exact ⟨_, _, _, _, congrArg _ (writeByte_eq x s), rfl, rfl, fun _ => rfl, risingEdges_writeByteShape x⟩
  · exact ⟨_, _, _, _, congrArg _ (readByte_snd s), rfl, rfl, fun _ => rfl, risingEdges_readByteShape _⟩

/-! ### The obligations -/

/-- Settles O15: the closed form of the call, whose events are none where the direction is held. -/
theorem setDirSwitchesAndWaits : Obligations.SetDirSwitchesAndWaits := by
  refine fun s d ho => ⟨fun hne => ?_, fun hd => ?_⟩
  · rw [callSetDir_eq d ho, dirShape, if_neg hne]
    rfl
  · subst hd
    rw [callSetDir_eq _ ho, dirShape, if_pos rfl, State.onWire, List.append_nil]
    rfl

/-- Settles O16: the closed form of the call is the statement's own state. -/
theorem pulseClockPulses : Obligations.PulseClockPulses :=
  fun _ ho hc => callPulseClock_eq ho hc

/-- Settles O17: performed on a line that is OUT, refused by the direction alone on one that is IN. -/
theorem writeBitDrivesAndPulses : Obligations.WriteBitDrivesAndPulses :=
  fun _ v ho => ⟨callWriteBit_eq v ho, fun hd => guards_of_wrongDirection _ ho (by simp [hd])⟩

/-- Settles O18: performed on a line that is IN, refused by the direction alone on one that is OUT. -/
theorem readBitSamplesWhileHigh : Obligations.ReadBitSamplesWhileHigh :=
  fun _ ho => ⟨callReadBit_eq ho, fun hd => guards_of_wrongDirection _ ho (by simp [hd])⟩

/-- Settles O19: the events are the shape `W(x)`, whose length, edges and least duration are known of every byte. -/
theorem writeByteSendsMsbFirst : Obligations.WriteByteSendsMsbFirst := by
  refine fun s x ho => ⟨fun hd hc => ⟨writeByteShape x, ?_⟩, fun hd => guards_of_wrongDirection _ ho (by simp [hd])⟩
  exact ⟨callWriteByte_eq x ho hd hc, rfl, length_writeByteShape x, risingEdges_writeByteShape x,
    fun time => leastDuration_writeByteShape time x⟩

/-- Settles O20: the byte is the one the next eight answers spell, and the events are the shape `R->x` of it. -/
theorem readByteAssemblesMsbFirst : Obligations.ReadByteAssemblesMsbFirst := by
  refine fun s ho => ⟨fun hd hc => ⟨s.upcomingByte 0, readByteShape (s.upcomingByte 0), ?_⟩,
    fun hd => guards_of_wrongDirection _ ho (by simp [hd])⟩
  exact ⟨callReadByte_eq ho hd hc, fun _ => getLsbD_upcomingByte_zero s, readByteShape_upcomingByte_zero s,
    length_readByteShape _, risingEdges_readByteShape _, fun time => leastDuration_readByteShape time _⟩

/-- Settles O21: the listed counts are `Call.edges`, and a call that has one moves the wire with that many edges. -/
theorem bitClockEdges : Obligations.BitClockEdges := by
  intro s c n t hlisted hc h
  have hn : c.edges = some n := by
    rcases hlisted with hmem | ⟨d, hcn⟩ | ⟨x, hcn⟩
    · exact (by decide : ∀ p ∈ [(Call.pulseClock, 1), (.writeBit true, 1), (.writeBit false, 1), (.readBit, 1),
        (.readByte, 8)], p.1.edges = some p.2) (c, n) hmem
    · cases hcn
      rfl
    · cases hcn
      rfl
  obtain ⟨l, evs, k, r, rfl, hclk, hreset, hdir, hedges⟩ := runCall_edges hn hc h
  exact ⟨hclk, hreset, hdir, evs, rfl, hedges⟩

end Sys2Proof.Machine
end

section
/-! The exchange as a client's call (41_commandchannel R141): refused without a record, refused with another number of
request bytes than the record's, performed with the record's number. -/

namespace Sys2Proof.Machine

/-- Bytes that spell an instruction whole run it. -/
theorem runBytes_of_ok {sp : Space} {bytes : List Byte} {i : Instr} (h : decodeWhole sp bytes = .ok i) (s : State) :
    runBytes sp bytes s = exec i s := by
  simp [runBytes, h]

/-- An exchange with another number of request bytes than its record's is refused, in any session (R141 (b)). -/
theorem step_of_exchange_wrongCount {s : State} {op : Byte} {req : List Byte} {rest : List Call} {r : CmdRecord}
    (hc : s.calls = .exchange op req :: rest) (hl : cmdLookup op = some r) (hn : req.length ≠ r.nreq.val) :
    step s = .refused .wrongRequestCount := by
  rw [step_of_exchange hc]
  rcases decodeWhole_frame_count op req r hl hn with he | he
  · exact runBytes_of_error he _
  · exact runBytes_of_error he _

/-- An exchange with its record's number of request bytes is the command of those bytes (R140, R141). -/
theorem step_of_exchange_performed {s : State} {op : Byte} {req : List Byte} {rest : List Call} {r : CmdRecord}
    (ho : s.session = .opened) (hk : s.link.clk = false) (hc : s.calls = .exchange op req :: rest)
    (hl : cmdLookup op = some r) (hn : req.length = r.nreq.val) :
    step s = .next ({ s with calls := rest }.commanded r req) := by
  obtain ⟨i, hdecode, rfl, hbytes⟩ := decodeWhole_frame op req r hl hn
  rw [step_of_exchange hc, runBytes_of_ok hdecode, exec_ready i { s with calls := rest } ho hk, hbytes, List.tail_cons]

/-- Settles O25: the decoder separates the three cases, and only the performed one asks for an open session and a low
clock. -/
theorem exchangeRefusals : Obligations.ExchangeRefusals :=
  fun _ _ _ _ ho hk hc => ⟨step_of_exchange_unknown hc, fun _ hl =>
    ⟨step_of_exchange_wrongCount hc hl, step_of_exchange_performed ho hk hc hl⟩⟩

end Sys2Proof.Machine
end

section
/-! The events of an exchange (41_commandchannel R142): what a completed instruction appends to the trace, and how many
events, pulses and how much time that takes, from the number of bytes sent and read. -/

namespace Sys2Proof.Machine

/-! ### The bytes of an instruction -/

/-- The opcode and the record's number of request bytes (R90). -/
theorem length_wireBytes (i : Instr) : (wireBytes i).length = 1 + i.record.nreq.val := by
  rw [wireBytes_eq, List.length_cons, length_request, Nat.add_comm]

/-- The first byte sent is the opcode of the instruction's record (R90, R91). -/
theorem cmdLookup_headD_wireBytes (i : Instr) : cmdLookup ((wireBytes i).headD 0) = some i.record := by
  rw [wireBytes_eq, List.headD_cons, lookup_record]

@[simp] theorem length_upcomingBytes (s : State) (n : Nat) : (s.upcomingBytes n).length = n := by
  simp [State.upcomingBytes]

/-- What a completed instruction appends to the trace: the exchange of its bytes and of the presented ones (R142). -/
theorem exec_trace {i : Instr} {s t : State} (h : exec i s = .next t) :
    t.trace = s.trace ++ exchangeShape s.link.dataDir (wireBytes i) (s.upcomingBytes i.record.nresp.val) := by
  obtain ⟨-, -, rfl⟩ := exec_next h
  exact trace_commanded i s

/-! ### The shape of an exchange -/

/-- From a line that is IN the exchange begins with the switch to OUT (R142). -/
theorem exchangeShape_inp (sent resp : List Byte) :
    exchangeShape .inp sent resp =
      [.dir .out, .wait .tDir] ++ sent.flatMap writeByteShape ++ [.dir .inp, .wait .tDir] ++
        resp.flatMap readByteShape := by
  rw [List.append_assoc _ [Event.dir .inp, .wait .tDir]]
  rfl

/-- Two events where the direction switches, none where it is held (R120). -/
theorem length_dirShape (was d : Dir) : (dirShape was d).length = if was = d then 0 else 2 := by
  unfold dirShape
  split <;> rfl

/-- The number of events of a whole exchange from either direction (R142). -/
theorem length_exchangeShape (was : Dir) (sent resp : List Byte) :
    (exchangeShape was sent resp).length =
      (if was = .out then 0 else 2) + 2 + 40 * sent.length + 41 * resp.length := by
  simp only [exchangeShape, List.length_append, length_dirShape, length_bytes_out, length_bytes_inp, List.length_cons,
    List.length_nil]
  omega

/-- Settles O26: the appended events are an exchange shape from a line that is IN, of which the length, the edges and
the least duration are known by the numbers of bytes sent and read. -/
theorem exchangeTraceShape : Obligations.ExchangeTraceShape := by
  intro i s t r hin h hr
  obtain rfl : i.record = r := Option.some.inj ((cmdLookup_headD_wireBytes i).symm.trans hr)
  have htrace := exec_trace h
  rw [hin] at htrace
  refine ⟨_, htrace, exchangeShape_inp _ _, length_wireBytes i, ?_, ?_, fun time => ?_⟩
  · rw [length_exchangeShape, length_wireBytes, length_upcomingBytes]
    rfl
  · rw [risingEdges_exchangeShape, length_wireBytes, length_upcomingBytes]
  · rw [leastDuration_exchangeShape, length_wireBytes, length_upcomingBytes, if_neg (by decide)]
    push_cast
    ring

end Sys2Proof.Machine
end

section
/-! The phases of one attempt (42_debugentry R172 to R176) and the events an attempt appends (R184). -/

namespace Sys2Proof.Machine

/-! ### The phases -/

theorem assertReset_eq (s : State) :
    assertReset s = { s with
      attempts := s.attempts + 1, seq := .resetAsserted, link := { s.link with resetN := false }
      trace := s.trace ++ [.rst false, .wait .tResetHold] } := by
  simp [assertReset, wait, driveReset, setSeq, countAttempt, emit]

/-- Two pulses end with the levels they began with (R121, R173). -/
theorem twoClockEdges_eq {s : State} (hc : s.link.clk = false) :
    twoClockEdges s = { s with seq := .twoClockEdges, trace := s.trace ++ (pulseShape ++ pulseShape) } := by
  rw [twoClockEdges, pulseClock_eq, pulseClock_eq, onWire_onWire, onWire_link, setSeq_link, link_clk_low hc]
  rfl

/-- The identity read is one GET_CHIP_ID exchange, its two bytes joined (R97, R176). -/
theorem readIdentity_eq (s : State) :
    readIdentity s = { s.exchanged Cmd.getChipId with
      chipId := joinBytes (s.upcomingByte 0) (s.upcomingByte 8)
      held := { s.held with req := 0, resp := 2, chipId := true } } := by
  rw [readIdentity, exchange_eq _ _ (by decide)]
  rfl

/-- Settles O31: the closed form of each phase, the fixed events of two pulses written out. -/
theorem attemptPhases : Obligations.AttemptPhases :=
  fun s => ⟨assertReset_eq s, twoClockEdges_eq, rfl, rfl, readIdentity_eq s⟩

/-! ### The events of one attempt -/

/-- Events that never drive RESET_N close no reset window. -/
theorem windowEdges_eq_nil {evs : List Event} (h : ∀ v, .rst v ∉ evs) (w : Option Nat) : windowEdges w evs = [] := by
  induction evs generalizing w with
  | nil => rfl
  | cons e evs ih =>
    rw [windowEdges, ih fun v hv => h v (List.mem_cons_of_mem e hv), List.append_nil]
    rintro n rfl -
    exact h true List.mem_cons_self

/-- An exchange never drives RESET_N (R140). -/
theorem rst_notMem_exchangeShape (was : Dir) (sent resp : List Byte) (v : Bit) :
    .rst v ∉ exchangeShape was sent resp := by
  have hdir : .rst v ∉ dirShape was .out := by unfold dirShape; split <;> simp
  simp [exchangeShape, hdir, writeByteShape, writeBitShape, readByteShape, readBitShape]

/-- One attempt is one reset window, of two rising edges (R173). -/
theorem windowEdges_attemptShape (was : Dir) (hi lo : Byte) : windowEdges none (attemptShape was hi lo) = [2] := by
  rw [attemptShape, windowEdges_append, windowEdges_entryShape, windowEdges_eq_nil (rst_notMem_exchangeShape _ _ _)]
  rfl

/-- From a line that is IN: 12 events to enter debug mode, 126 of GET_CHIP_ID (R142, R184). -/
theorem length_attemptShape_inp (hi lo : Byte) : (attemptShape .inp hi lo).length = 138 := by
  rw [attemptShape, List.length_append, length_exchangeShape]
  rfl

/-- Two pulses with reset low, three bytes with reset high (R184). -/
theorem risingEdges_attemptShape (was : Dir) (hi lo : Byte) : risingEdges (attemptShape was hi lo) = 26 := by
  rw [attemptShape, risingEdges_append, risingEdges_exchangeShape]
  rfl

theorem leastDuration_entryShape (time : Delay → Real) :
    leastDuration time entryShape = time .tResetHold + time .tStartup + 4 * time .tHalf := by
  simp [entryShape, pulseShape, leastDuration]
  ring

theorem leastDuration_attemptShape_inp (time : Delay → Real) (hi lo : Byte) :
    leastDuration time (attemptShape .inp hi lo) =
      time .tResetHold + time .tStartup + 2 * time .tDir + 2 * time .tPre + 52 * time .tHalf := by
  rw [attemptShape, leastDuration_append, leastDuration_entryShape, leastDuration_exchangeShape, if_neg (by decide)]
  norm_num
  ring

end Sys2Proof.Machine
end

section
/-! `attach` as a client's call (42_debugentry R171, R181, R183): where it is performed and refused, its two ends from a
state with no attempt counted, and the events of either. -/

namespace Sys2Proof.Machine

/-! ### Performed and refused -/

theorem callAttach_of_idle (p : Config.Sequencing) {s : State} (ho : s.session = .opened) (hc : s.link.clk = false)
    (hq : s.seq = .idle) : callAttach p s = .next (returning .nothing (attach p s)) := by
  rw [callAttach, whenOpen_of_opened _ ho, if_pos hq, whenClockLow_of_low _ hc]

theorem callAttach_of_not_idle (p : Config.Sequencing) {s : State} (ho : s.session = .opened) (hq : s.seq ≠ .idle) :
    callAttach p s = .refused .attachNotIdle := by
  rw [callAttach, whenOpen_of_opened _ ho, if_neg hq]

/-- Settles O36: the precondition is the state Idle, which a reset of the block writes. -/
theorem attachOnlyFromIdle : Obligations.AttachOnlyFromIdle :=
  ⟨fun _ ho hq => callAttach_of_not_idle _ ho hq, fun _ => ⟨_, rfl, _, callAttach_of_idle _ rfl rfl rfl⟩⟩

/-! ### The two ends -/

/-- Counted from 0, neither the first nor the second attempt is the last of the budget (R178). -/
theorem attempts_ne_budget :
    ∀ j, j < 2 → ((0 : BitVec 2) + BitVec.ofNat 2 (j + 1)).toNat ≠ Config.sequencing.maxAttempts := by
  decide

/-- With no attempt counted, `attach` ends at the least valid identity of three, or fatal where there is none (R183). -/
theorem attach_cases {s : State} (h0 : s.attempts = 0) :
    (∃ k, k < 3 ∧ identityValid (s.upcomingId k) = true ∧ (∀ j, j < k → identityValid (s.upcomingId j) = false) ∧
      returning .nothing (attach Config.sequencing s) = setSeq .verified (s.afterAttempts (k + 1))) ∨
    ((∀ j, j < 3 → identityValid (s.upcomingId j) = false) ∧
      returning .nothing (attach Config.sequencing s) =
        raiseFatal .linkAbsent (setSeq .failed (s.afterAttempts 3))) := by
  have budget : ∀ j, j < 2 → (s.attempts + BitVec.ofNat 2 (j + 1)).toNat ≠ Config.sequencing.maxAttempts := by
    rw [h0]
    exact attempts_ne_budget
  by_cases h : ∃ k, k < 3 ∧ identityValid (s.upcomingId k) = true
  · obtain ⟨k, ⟨hk, hvalid⟩, hmin⟩ := Nat.findX h
    have before : ∀ j, j < k → identityValid (s.upcomingId j) = false := fun j hj =>
      Bool.eq_false_iff.2 fun hv => hmin j hj ⟨by omega, hv⟩
    exact .inl ⟨k, hk, hvalid, before,
      attachLoop_verified _ s k _ (by omega) (fun j hj => budget j (by omega)) before hvalid⟩
  · have none_valid : ∀ j, j < 3 → identityValid (s.upcomingId j) = false := fun j hj =>
      Bool.eq_false_iff.2 fun hv => h ⟨j, hj, hv⟩
    refine .inr ⟨none_valid, attachLoop_absent _ s 2 _ (by omega) budget ?_ fun j hj => none_valid j (by omega)⟩
    rw [h0]
    rfl

/-- Counted from 0, `attempts` is the number of attempts made (R172). -/
theorem attempts_afterAttempts {s : State} (h0 : s.attempts = 0) (k : Nat) :
    (s.afterAttempts k).attempts = BitVec.ofNat 2 k := by
  rw [State.afterAttempts, h0, zero_add]

/-- Settles O35: each end of `attach_cases` decides both equivalences and gives the registers of its own. -/
theorem attachOutcomeLaw : Obligations.AttachOutcomeLaw := by
  intro s ho hc hq h0 he
  refine ⟨_, callAttach_of_idle _ ho hc hq, ?_⟩
  rcases attach_cases h0 with ⟨k, hk, hvalid, hbefore, ht⟩ | ⟨hnone, ht⟩
  · rw [ht]
    refine ⟨iff_of_true rfl ⟨k, hk, hvalid⟩, iff_of_false nofun fun hall => ?_,
      fun _ => ⟨he, k, hk, attempts_afterAttempts h0 _, rfl, hvalid, hbefore⟩, nofun⟩
    exact Bool.false_ne_true ((hall k hk).symm.trans hvalid)
  · rw [ht]
    refine ⟨iff_of_false nofun ?_, iff_of_true ⟨rfl, if_pos he⟩ hnone, nofun,
      fun _ => ⟨attempts_afterAttempts h0 3, rfl⟩⟩
    rintro ⟨j, hj, hvalid⟩
    exact Bool.false_ne_true ((hnone j hj).symm.trans hvalid)

/-! ### The events -/

/-- From a line that is IN every attempt begins on one that is IN (R184). -/
theorem attemptsShape_inp {s : State} (hin : s.link.dataDir = .inp) (k : Nat) :
    s.attemptsShape k =
      (List.range k).flatMap fun j => attemptShape .inp (s.upcomingByte (16 * j)) (s.upcomingByte (16 * j + 8)) := by
  simp [State.attemptsShape, hin]

/-- With no attempt counted, `attach` appends one, two or three attempts' events (R184). -/
theorem attach_trace {s : State} (h0 : s.attempts = 0) :
    ∃ k, 1 ≤ k ∧ k ≤ 3 ∧
      (returning .nothing (attach Config.sequencing s)).trace = s.trace ++ s.attemptsShape k := by
  rcases attach_cases h0 with ⟨k, hk, -, -, ht⟩ | ⟨-, ht⟩
  · exact ⟨k + 1, by omega, hk, by rw [ht]; rfl⟩
  · exact ⟨3, by decide, le_rfl, by rw [ht]; rfl⟩

/-- Settles O32: an attempt appends the shape of an attempt, measured piece by piece; an attach appends up to three. -/
theorem attemptTrace : Obligations.AttemptTrace := by
  refine ⟨fun s hin => ⟨attemptShape .inp (s.upcomingByte 0) (s.upcomingByte 8), ?_, rfl, ?_, ?_, rfl, rfl, ?_, ?_⟩,
    fun s t hin h0 h => ?_⟩
  · rw [trace_attempt, hin]
  · exact length_attemptShape_inp _ _
  · exact risingEdges_attemptShape _ _ _
  · exact windowEdges_attemptShape _ _ _
  · exact fun time => leastDuration_attemptShape_inp time _ _
  · obtain ⟨-, -, -, rfl⟩ := callAttach_next h
    obtain ⟨k, hpos, hk, htrace⟩ := attach_trace h0
    exact ⟨k, hpos, hk, by rw [htrace, attemptsShape_inp hin]⟩

end Sys2Proof.Machine
end

section
/-! `gate` as a client's call (42_debugentry R185 to R194): what every gating writes and leaves, that the expected family
reaches `warn_family` alone, and that `gate` is written by a gating or a reset of the block only. -/

namespace Sys2Proof.Machine

/-! ### Performed and refused -/

theorem callGate_of_ready (p : Config.Sequencing) {s : State} (ho : s.session = .opened) (hc : s.link.clk = false)
    (hr : s.seq = .verified ∧ s.gate = .gateIdle ∧ s.error = .none) :
    callGate p s = .next (returning .nothing (gateChecks p s).state) := by
  rw [callGate, whenOpen_of_opened _ ho, if_pos hr, whenClockLow_of_low _ hc]

theorem callGate_of_not_ready (p : Config.Sequencing) {s : State} (ho : s.session = .opened)
    (hr : ¬(s.seq = .verified ∧ s.gate = .gateIdle ∧ s.error = .none)) :
    callGate p s = .refused .gateNotReady := by
  rw [callGate, whenOpen_of_opened _ ho, if_neg hr]

/-! ### What a gating writes -/

/-- `t` is `s` after one-byte reads of the sequencer and writes of the gating's own registers: the fields written here
from `t` itself are the ones a gating may write, every other field is fixed by `s` (R185, R193). -/
def GateWrites (s t : State) : Prop :=
  ∃ evs n, t = { s.afterReads evs n with
    gate := t.gate
    error := t.error
    status := t.status
    warnFamily := t.warnFamily
    oscPolls := t.oscPolls
    extractOk := t.extractOk
    haltResp := t.haltResp
    held := { t.held with chipId := s.held.chipId }
    returned := t.returned }

/-- The first status read of the gating, before `gate` and `osc_polls` are written for the polls (R187). -/
theorem statusRead_gateLock (expected : Byte) (s : State) :
    (setGate .gateLock (checkFamily expected s)).statusRead =
      setPolls s.oscPolls (setGate .gateLock (s.polled expected 0)) :=
  congrArg (fun u => setPolls s.oscPolls (setGate .gateLock u)) (statusRead_start expected s)

/-- How every gating ends: Approved or GateFatal, with nothing but the gating's registers written, in one state for
every expected family but for `warn_family` (R185, R186, R193). -/
theorem gateChecks_ends (p : Config.Sequencing) (s : State) :
    ∃ u, GateWrites s u ∧ (u.gate = .approved ∨ u.gate = .gateFatal) ∧
      ∀ e, (gateChecks { p with expectedFamily := e } s).state =
        { u with warnFamily := s.warnFamily || familyMismatch e s.chipId } := by
  rcases gateChecks_cases p s with ⟨-, h⟩ | ⟨-, m, -, -, ⟨-, -, h⟩ | ⟨-, -, h⟩ | ⟨-, h⟩⟩
  · simp only [statusRead_gateLock] at h
    exact ⟨(failGate .debugLocked (setPolls s.oscPolls (setGate .gateLock (s.polled 0 0)))).state, ⟨_, 1, rfl⟩,
      .inr rfl, fun e => by rw [h]; rfl⟩
  · exact ⟨(failGate .debugLocked (s.polled 0 m)).state, ⟨_, m + 1, rfl⟩, .inr rfl, fun e => by rw [h]; rfl⟩
  · exact ⟨(failGate .oscillatorUnstable (s.polled 0 m)).state, ⟨_, m + 1, rfl⟩, .inr rfl, fun e => by rw [h]; rfl⟩
  · simp only [approve_haltRead] at h
    split at h
    · exact ⟨(failGate .debugLocked (s.haltRead 0 m)).state, ⟨_, m + 3, rfl⟩, .inr rfl, fun e => by rw [h]; rfl⟩
    split at h
    · exact ⟨grantExtraction (setGate .approved (s.haltRead 0 m)), ⟨_, m + 3, rfl⟩, .inl rfl,
        fun e => by rw [h]; rfl⟩
    · exact ⟨(failGate .haltVerificationFailed (s.haltRead 0 m)).state, ⟨_, m + 3, rfl⟩, .inr rfl,
        fun e => by rw [h]; rfl⟩

/-- A gating that completes has written nothing but its own registers, and ends Approved or GateFatal. -/
theorem gateWrites_of_callGate {p : Config.Sequencing} {s t : State} (h : callGate p s = .next t) :
    GateWrites s t ∧ (t.gate = .approved ∨ t.gate = .gateFatal) := by
  obtain ⟨-, -, -, rfl⟩ := callGate_next h
  obtain ⟨u, ⟨evs, n, hu⟩, hgate, hends⟩ := gateChecks_ends p s
  have hp : (gateChecks p s).state = _ := hends p.expectedFamily
  rw [hp]
  refine ⟨⟨evs, n, ?_⟩, hgate⟩
  rw [hu]
  rfl

/-- Settles O46: the fields `GateWrites` does not write, read off one by one. -/
theorem gateFrame : Obligations.GateFrame := by
  intro s t h
  obtain ⟨⟨evs, n, ht⟩, -⟩ := gateWrites_of_callGate h
  rw [ht]
  exact ⟨rfl, rfl, rfl, rfl, rfl, rfl, rfl, rfl, rfl, rfl, rfl, rfl, rfl, rfl, evs, rfl⟩

/-! ### The family check -/

/-- The comparison of the family check, on the bits of `chip_id[15:8]` (R186). -/
theorem familyMismatch_eq_decide (expected : Byte) (id : Half) :
    familyMismatch expected id = decide (id.extractLsb' 8 8 ≠ expected) := by
  rw [familyMismatch, family, decide_not]
  rfl

/-- Settles O45: the gating under either expected family ends in one state but for `warn_family`. -/
theorem familyCheckOnlyWarns : Obligations.FamilyCheckOnlyWarns := by
  intro s t p other h
  obtain ⟨ho, hready, hc, ht⟩ := callGate_next h
  obtain ⟨u, -, -, hends⟩ := gateChecks_ends p s
  have hp : (gateChecks p s).state = _ := hends p.expectedFamily
  rw [hp] at ht
  rw [callGate_of_ready _ ho hc hready, hends other, ht, ← familyMismatch_eq_decide,
    ← familyMismatch_eq_decide]
  exact ⟨rfl, rfl⟩

/-! ### The `gate` register from step to step -/

theorem gate_attach (p : Config.Sequencing) (s : State) : (attach p s).gate = s.gate :=
  have hattempt (q : SeqState) (u : State) (hu : u.gate = s.gate) : (setSeq q (attempt u)).gate = s.gate := by
    rw [setSeq_gate, attempt_eq]
    exact hu
  attachLoop_induction p (·.gate = s.gate) (fun u hu _ => hattempt _ u hu) (fun u hu _ => hattempt _ u hu)
    (fun _ hu => hu) _ s rfl

/-- Every call but a gating and a reset of the block leaves `gate` as it is (R35). -/
theorem gate_runCall {c : Call} {s t : State} (h : runCall c s = .next t) (hg : c ≠ .gate) (hr : c ≠ .reset) :
    t.gate = s.gate := by
  rcases runCall_next h with ⟨i, -, hi⟩ | ⟨d, -, -, rfl⟩ | ⟨-, -, -, rfl⟩ | ⟨v, -, -, -, -, rfl⟩ |
    ⟨-, -, -, -, rfl⟩ | ⟨x, -, -, -, -, rfl⟩ | ⟨-, -, -, -, rfl⟩ | ⟨-, ha⟩ | ⟨rfl, -⟩ | ⟨rfl, -⟩
  · obtain ⟨-, -, rfl⟩ := exec_next hi
    rfl
  · rw [setDir_eq]
    rfl
  · rfl
  · rfl
  · rfl
  · rw [writeByte_eq]
    rfl
  · rw [readByte_snd]
    rfl
  · obtain ⟨-, -, -, rfl⟩ := callAttach_next ha
    exact gate_attach _ s
  · exact absurd rfl hg
  · exact absurd rfl hr

/-- Once `gate` has left GateIdle no gating completes (R194). -/
theorem callGate_ne_next {p : Config.Sequencing} {s : State} (hg : s.gate ≠ .gateIdle) (u : State) :
    callGate p s ≠ .next u := fun h => by
  obtain ⟨-, ⟨-, hidle, -⟩, -⟩ := callGate_next h
  exact hg hidle

/-- Once `gate` has left GateIdle every step but a reset of the block keeps it (R194). -/
theorem gate_step {s t : State} (h : step s = .next t) (hg : s.gate ≠ .gateIdle)
    (hr : ∀ rest, s.calls ≠ .reset :: rest) : t.gate = s.gate := by
  rcases step_next h with ⟨-, rfl⟩ | ⟨c, rest, hcalls, hrun⟩
  · rfl
  · have hgate : c ≠ .gate := by
      rintro rfl
      exact callGate_ne_next (s := { s with calls := rest }) hg t hrun
    have hreset : c ≠ .reset := by
      rintro rfl
      exact hr rest hcalls
    exact (gate_runCall hrun hgate hreset :)

/-- Settles O44: the precondition refuses, a completed gating leaves `gate` at one of its ends, and no step but a reset
of the block brings it back to GateIdle. -/
theorem gateOnlyOnceFromVerified : Obligations.GateOnlyOnceFromVerified := by
  refine ⟨fun s ho hnot => callGate_of_not_ready _ ho ?_, fun s t h => ?_, fun s t h hg hr => ?_⟩
  · rintro ⟨hq, hidle, he⟩
    rcases hnot with hnot | hnot | hnot
    · exact hnot hq
    · exact hnot hidle
    · exact hnot he
  · obtain ⟨ho, -⟩ := callGate_next h
    obtain ⟨-, hsession, -⟩ := gateFrame s t h
    obtain ⟨-, hgate⟩ := gateWrites_of_callGate h
    refine callGate_of_not_ready _ (hsession.trans ho) ?_
    rintro ⟨-, hidle, -⟩
    rw [hidle] at hgate
    exact hgate.elim nofun nofun
  · have hkept := gate_step h hg hr
    exact ⟨hkept, callGate_ne_next (by rw [hkept]; exact hg)⟩

end Sys2Proof.Machine
end

section
/-! The `error` register from call to call (60_exceptions R230, R236): which calls can end fatal and with which codes, that
a call raises where no error stands and nowhere else, and that only a reset of the block takes an error back. -/

namespace Sys2Proof.Machine

/-! ### The codes a call can raise -/

/-- The codes each call can end fatal with: R179's for an attach, those of R187 (with R188), R189 and R191 for a gating,
none for any other call (R230). -/
def Call.fatalCodes : Call → List ErrorCode
  | .attach => [.linkAbsent]
  | .gate => [.debugLocked, .oscillatorUnstable, .haltVerificationFailed]
  | _ => []

theorem Call.mem_fatalCodes_iff {c : Call} {e : ErrorCode} :
    e ∈ c.fatalCodes ↔ (e = .linkAbsent ∧ c = .attach) ∨
      ((e = .debugLocked ∨ e = .oscillatorUnstable ∨ e = .haltVerificationFailed) ∧ c = .gate) := by
  cases c <;> simp [Call.fatalCodes]

/-! ### What an operation does to `error` -/

@[simp] theorem error_attempt (s : State) : (attempt s).error = s.error := by
  rw [attempt_eq]
  rfl

/-- An attach keeps `error`, or raises LinkAbsent where no error stood (R179, R236). -/
theorem error_attach (p : Config.Sequencing) (s : State) :
    (attach p s).error = s.error ∨ (s.error = .none ∧ (attach p s).error = .linkAbsent) := by
  refine attachLoop_induction p (fun u => u.error = s.error ∨ (s.error = .none ∧ u.error = .linkAbsent))
    (fun u hu _ => ?_) (fun u hu _ => ?_) (fun u hu => ?_) _ s (.inl rfl)
  · rwa [setSeq_error, error_attempt]
  · rwa [setSeq_error, error_attempt]
  · rw [raiseFatal_error]
    split
    · next hnone => exact .inr ⟨hu.elim (fun hkept => hkept ▸ hnone) And.left, rfl⟩
    · exact hu

/-- Where no error stands the raised code is the one that is written (R236). -/
theorem error_failGate {s : State} (code : ErrorCode) (he : s.error = .none) :
    (failGate code s).state.error = code := if_pos he

/-- From no error, a gating ends with none or with one of its own codes (R187 to R191). -/
theorem error_gateChecks (p : Config.Sequencing) {s : State} (he : s.error = .none) :
    (gateChecks p s).state.error = .none ∨ (gateChecks p s).state.error ∈ Call.gate.fatalCodes := by
  have fails {code : ErrorCode} (hcode : code ∈ Call.gate.fatalCodes) (u : State) (hu : u.error = .none) :
      (failGate code u).state.error = .none ∨ (failGate code u).state.error ∈ Call.gate.fatalCodes :=
    .inr (by rwa [error_failGate code hu])
  rcases gateChecks_cases p s with ⟨-, h⟩ | ⟨-, m, -, -, ⟨-, -, h⟩ | ⟨-, -, h⟩ | ⟨-, h⟩⟩
  all_goals rw [show gateChecks p s = _ from h p.expectedFamily]
  · exact fails (by decide) _ he
  · exact fails (by decide) _ he
  · exact fails (by decide) _ he
  · rw [approve_haltRead]
    split
    · exact fails (by decide) _ he
    split
    · exact .inl he
    · exact fails (by decide) _ he

/-! ### From call to call -/

/-- What a call does to `error`: it keeps it, or is a reset of the block, or raises one of its codes where no error stood
(R230, R236, R240). -/
theorem error_runCall {c : Call} {s t : State} (h : runCall c s = .next t) :
    t.error = s.error ∨ (c = .reset ∧ t.error = .none) ∨ (s.error = .none ∧ t.error ∈ c.fatalCodes) := by
  rcases runCall_next h with ⟨i, -, hi⟩ | ⟨d, -, -, rfl⟩ | ⟨-, -, -, rfl⟩ | ⟨v, -, -, -, -, rfl⟩ |
    ⟨-, -, -, -, rfl⟩ | ⟨x, -, -, -, -, rfl⟩ | ⟨-, -, -, -, rfl⟩ | ⟨rfl, ha⟩ | ⟨rfl, hg⟩ | ⟨rfl, rfl⟩
  · obtain ⟨-, -, rfl⟩ := exec_next hi
    exact .inl rfl
  · rw [setDir_eq]
    exact .inl rfl
  · exact .inl rfl
  · exact .inl rfl
  · exact .inl rfl
  · rw [writeByte_eq]
    exact .inl rfl
  · rw [readByte_snd]
    exact .inl rfl
  · obtain ⟨-, -, -, rfl⟩ := callAttach_next ha
    rcases error_attach Config.sequencing s with hkept | ⟨hnone, hraised⟩
    · exact .inl hkept
    · exact .inr (.inr ⟨hnone, List.mem_singleton.2 hraised⟩)
  · obtain ⟨-, ⟨-, -, hnone⟩, -, rfl⟩ := callGate_next hg
    rcases error_gateChecks Config.sequencing hnone with hkept | hraised
    · exact .inl (hkept.trans hnone.symm)
    · exact .inr (.inr ⟨hnone, hraised⟩)
  · exact .inr (.inl ⟨rfl, rfl⟩)

/-- What a step does to `error`: the oldest call's doing, or nothing. -/
theorem error_step {s t : State} (h : step s = .next t) :
    t.error = s.error ∨ ∃ c rest, s.calls = c :: rest ∧
      ((c = .reset ∧ t.error = .none) ∨ (s.error = .none ∧ t.error ∈ c.fatalCodes)) := by
  rcases step_next h with ⟨-, rfl⟩ | ⟨c, rest, hcalls, hrun⟩
  · exact .inl rfl
  · exact (error_runCall hrun).imp_right fun hchanged => ⟨c, rest, hcalls, hchanged⟩

/-- Settles O49: `error_step` names every way a step can change `error`. Where an error stands only the reset of the
block applies; where one is newly recorded only a call that raises does. -/
theorem fatalIsSticky : Obligations.FatalIsSticky := by
  refine ⟨fun _ _ => rfl, fun s t h he hr => ?_, fun s t h he ht => ?_⟩
  · rcases error_step h with hkept | ⟨c, rest, hcalls, ⟨rfl, -⟩ | ⟨hnone, -⟩⟩
    · exact hkept
    · exact absurd hcalls (hr rest)
    · exact absurd hnone he
  · rcases error_step h with hkept | ⟨c, rest, hcalls, ⟨-, hnone⟩ | ⟨-, hraised⟩⟩
    · exact absurd (hkept.trans he) ht
    · exact absurd hnone ht
    · rcases Call.mem_fatalCodes_iff.1 hraised with ⟨hcode, rfl⟩ | ⟨hcode, rfl⟩
      · exact .inl ⟨hcode, rest, hcalls⟩
      · exact .inr ⟨hcode, rest, hcalls⟩

end Sys2Proof.Machine
end

section
/-! The decoder and the encoder (30_encoding R90 to R103) are each other's inverse, and the decoder accepts exactly the
well-formed byte strings (41_commandchannel R141, 30_encoding R99). -/

namespace Sys2Proof

/-! ### Decoding an encoding -/

/-- Every instruction's frame is well formed and its encoding decodes to it, whatever follows. -/
theorem roundTrip : ∀ i : Instr, Laws.RoundTrip.Statement i
  | .chipErase => Laws.RoundTrip.chipErase
  | .wrConfig c => Laws.RoundTrip.wrConfig c
  | .rdConfig => Laws.RoundTrip.rdConfig
  | .getPc => Laws.RoundTrip.getPc
  | .readStatus => Laws.RoundTrip.readStatus
  | .halt => Laws.RoundTrip.halt
  | .resume => Laws.RoundTrip.resume
  | .debugInstr1 b0 => Laws.RoundTrip.debugInstr1 b0
  | .debugInstr2 b0 b1 => Laws.RoundTrip.debugInstr2 b0 b1
  | .debugInstr3 b0 b1 b2 => Laws.RoundTrip.debugInstr3 b0 b1 b2
  | .getChipId => Laws.RoundTrip.getChipId
  | .setPointer addr => Laws.RoundTrip.setPointer addr
  | .clearAccumulator => Laws.RoundTrip.clearAccumulator
  | .loadAccumulatorImmediate imm => Laws.RoundTrip.loadAccumulatorImmediate imm
  | .readCodeByte => Laws.RoundTrip.readCodeByte
  | .incrementPointer => Laws.RoundTrip.incrementPointer
  | .writeSpecialRegister addr imm => Laws.RoundTrip.writeSpecialRegister addr imm

/-- Settles O6: the round trip of each instruction, with the bytes after it as they come. -/
theorem decodeOfEncode : Obligations.DecodeOfEncode := fun i rest =>
  have ⟨hwellFormed, hdecode⟩ := roundTrip i
  ⟨hwellFormed, hdecode rest⟩

/-- What decodes whole is what the decoder of the space answers with nothing left over. -/
theorem decode_of_decodeWhole {sp : Space} {bytes : List Byte} {i : Instr} (h : decodeWhole sp bytes = .ok i) :
    decode sp bytes = .ok (i, []) := by
  unfold decodeWhole at h
  split at h
  · cases h
  · next he =>
    cases h
    exact he
  · cases h

/-! ### Frames -/

/-- Every row of the opcode map spells an instruction of the frame space. -/
theorem space_build_of_mem_frameRows :
    ∀ row ∈ frameRows, ∀ b0 b1 b2, (row.build b0 b1 b2).space = .frame := by
  simp [frameRows, Instr.space]

/-- A frame read off the front has a record and at least as many request bytes as the record says, which are the ones
taken off (R90, R102). -/
theorem decodeFrame_ok {op : Byte} {req rest : List Byte} {i : Instr} (h : decodeFrame (op :: req) = .ok (i, rest)) :
    i.space = .frame ∧
      ∃ r, cmdLookup op = some r ∧ r.nreq.val ≤ req.length ∧ rest = req.drop r.nreq.val := by
  rw [decodeFrame] at h
  split at h
  · cases h
  next row hrow =>
    split at h
    · cases h
    next hlong =>
      cases h
      refine ⟨space_build_of_mem_frameRows row (List.mem_of_find?_eq_some hrow) _ _ _, row.record, ?_,
        Nat.le_of_not_lt hlong, rfl⟩
      rw [cmdLookup_eq, hrow]
      rfl

/-- A frame that decodes whole has a record and as many request bytes as the record says (R141). -/
theorem lookup_of_decodeWhole_frame {op : Byte} {req : List Byte} {i : Instr}
    (h : decodeWhole .frame (op :: req) = .ok i) :
    i.space = .frame ∧ ∃ r, cmdLookup op = some r ∧ req.length = r.nreq.val := by
  obtain ⟨hspace, r, hl, hlong, hdrop⟩ := decodeFrame_ok (req := req) (decode_of_decodeWhole h)
  exact ⟨hspace, r, hl, Nat.le_antisymm (List.drop_eq_nil_iff.1 hdrop.symm) hlong⟩

theorem encode_of_decodeWhole_frame {op : Byte} {req : List Byte} {i : Instr}
    (h : decodeWhole .frame (op :: req) = .ok i) : encode i = op :: req ∧ i.space = .frame := by
  obtain ⟨hspace, r, hl, hn⟩ := lookup_of_decodeWhole_frame h
  obtain ⟨j, hj, -, hwire⟩ := decodeWhole_frame op req r hl hn
  obtain rfl : i = j := Except.ok.inj (h.symm.trans hj)
  refine ⟨?_, hspace⟩
  rwa [wireBytes, hspace] at hwire

/-! ### Payloads -/

/-- A first payload byte of the table with its row's number of bytes after it decodes to the instruction of that
payload (R99). -/
theorem decodeWhole_payload_row {b : Byte} {rest : List Byte} {row : PayloadRow} (hl : payloadLookup b = some row)
    (hn : rest.length = row.extra) :
    ∃ i : Instr, decodeWhole .payload (b :: rest) = .ok i ∧ encode i = b :: rest ∧ i.space = .payload := by
  have hm := List.mem_of_find?_eq_some hl
  obtain rfl : row.first = b := by simpa using List.find?_some hl
  have hlen := eq_of_length_eq rest
  simp only [payloadRows, List.mem_cons, List.not_mem_nil, or_false] at hm
  rcases hm with rfl | rfl | rfl | rfl | rfl | rfl
  · obtain ⟨hi, lo, rfl⟩ := hlen.2.2.1 hn
    refine ⟨.setPointer (hi ++ lo), rfl, ?_, rfl⟩
    rw [encode, hiByte_append, loByte_append]
  · obtain rfl := hlen.1 hn
    exact ⟨.clearAccumulator, rfl, rfl, rfl⟩
  · obtain ⟨imm, rfl⟩ := hlen.2.1 hn
    exact ⟨.loadAccumulatorImmediate imm, rfl, rfl, rfl⟩
  · obtain rfl := hlen.1 hn
    exact ⟨.readCodeByte, rfl, rfl, rfl⟩
  · obtain rfl := hlen.1 hn
    exact ⟨.incrementPointer, rfl, rfl, rfl⟩
  · obtain ⟨addr, imm, rfl⟩ := hlen.2.2.1 hn
    exact ⟨.writeSpecialRegister addr imm, rfl, rfl, rfl⟩

/-- A payload read off the front has a row and at least as many bytes after the first as the row says, which are the
ones taken off (R99). -/
theorem decodePayload_ok {b : Byte} {bytes rest : List Byte} {i : Instr}
    (h : decodePayload (b :: bytes) = .ok (i, rest)) :
    ∃ row, payloadLookup b = some row ∧ row.extra ≤ bytes.length ∧ rest = bytes.drop row.extra := by
  rw [decodePayload] at h
  split at h
  · cases h
  next row hrow =>
    split at h
    · cases h
    next hlong =>
      cases h
      exact ⟨row, hrow, Nat.le_of_not_lt hlong, rfl⟩

/-- A payload that decodes whole has a row and as many bytes after the first as the row says (R99). -/
theorem lookup_of_decodeWhole_payload {b : Byte} {rest : List Byte} {i : Instr}
    (h : decodeWhole .payload (b :: rest) = .ok i) :
    ∃ row, payloadLookup b = some row ∧ rest.length = row.extra := by
  obtain ⟨row, hl, hlong, hdrop⟩ := decodePayload_ok (bytes := rest) (decode_of_decodeWhole h)
  exact ⟨row, hl, Nat.le_antisymm (List.drop_eq_nil_iff.1 hdrop.symm) hlong⟩

theorem encode_of_decodeWhole_payload {b : Byte} {rest : List Byte} {i : Instr}
    (h : decodeWhole .payload (b :: rest) = .ok i) : encode i = b :: rest ∧ i.space = .payload := by
  obtain ⟨row, hl, hn⟩ := lookup_of_decodeWhole_payload h
  obtain ⟨j, hj, hencode⟩ := decodeWhole_payload_row hl hn
  obtain rfl : i = j := Except.ok.inj (h.symm.trans hj)
  exact hencode

/-- No instruction is spelled by no byte at all. -/
theorem decodeWhole_nil (sp : Space) : decodeWhole sp [] = .error .empty := by
  cases sp <;> rfl

/-- Settles O7: bytes that decode whole have a row and its number of bytes, which leaves one instruction, encoded by
those bytes. -/
theorem encodeOfDecode : Obligations.EncodeOfDecode := by
  intro sp bytes i h
  match sp, bytes with
  | sp, [] =>
    rw [decodeWhole_nil] at h
    cases h
  | .frame, op :: req => exact encode_of_decodeWhole_frame h
  | .payload, b :: rest => exact encode_of_decodeWhole_payload h

/-! ### Well-formed bytes -/

theorem frameWellFormed_iff {op : Byte} {req : List Byte} :
    frameWellFormed op req = true ↔ ∃ r, cmdLookup op = some r ∧ req.length = r.nreq.val := by
  unfold frameWellFormed
  cases cmdLookup op <;> simp

theorem payloadWellFormed_cons_iff {b : Byte} {rest : List Byte} :
    payloadWellFormed (b :: rest) = true ↔ ∃ row, payloadLookup b = some row ∧ rest.length = row.extra := by
  rw [payloadWellFormed]
  cases payloadLookup b <;> simp

/-- Settles O8: in either space, to decode whole and to be well formed are both to have a row and its byte count. -/
theorem decodesExactlyWellFormed : Obligations.DecodesExactlyWellFormed := by
  refine ⟨fun op req => ?_, fun bytes => ?_⟩
  · rw [frameWellFormed_iff]
    refine ⟨fun ⟨_, h⟩ => (lookup_of_decodeWhole_frame h).2, fun ⟨r, hl, hn⟩ => ?_⟩
    obtain ⟨i, hi, -⟩ := decodeWhole_frame op req r hl hn
    exact ⟨i, hi⟩
  · cases bytes with
    | nil => simp [decodeWhole_nil, payloadWellFormed]
    | cons b rest =>
      rw [payloadWellFormed_cons_iff]
      refine ⟨fun ⟨_, h⟩ => lookup_of_decodeWhole_payload h, fun ⟨row, hl, hn⟩ => ?_⟩
      obtain ⟨i, hi, -⟩ := decodeWhole_payload_row hl hn
      exact ⟨i, hi⟩

/-! ### Words -/

/-- The decoder reads no further than an encoding: what it reads off the front of longer bytes is what the front decodes
to (R90). -/
theorem eq_of_decode_append {sp : Space} {front back rest : List Byte} {i j : Instr}
    (hfront : decodeWhole sp front = .ok j) (h : decode sp (front ++ back) = .ok (i, rest)) : i = j := by
  obtain ⟨rfl, rfl⟩ := encodeOfDecode sp front j hfront
  obtain ⟨-, hdecode⟩ := roundTrip j
  exact congrArg Prod.fst (Except.ok.inj (h.symm.trans (hdecode back)))

/-- The bytes of a table word up to the length of its encoding decode whole to what the word decodes to. -/
theorem decodeWhole_take_of_decode {b : Byte} {bytes rest : List Byte} {i : Instr}
    (h : decode (tableSpace b) (b :: bytes) = .ok (i, rest)) :
    decodeWhole (tableSpace b) (b :: bytes.take (encodingLength b - 1)) = .ok i := by
  have hwhole : ∃ j, decodeWhole (tableSpace b) (b :: bytes.take (encodingLength b - 1)) = .ok j := by
    cases hl : cmdLookup b with
    | some r =>
      have hspace : tableSpace b = .frame := by rw [tableSpace, hl]
      have hcount : encodingLength b - 1 = r.nreq.val := by rw [encodingLength, hl, Nat.add_sub_cancel_left]
      rw [hspace] at h ⊢
      obtain ⟨-, r', hl', hlong, -⟩ := decodeFrame_ok (req := bytes) h
      obtain rfl : r = r' := Option.some.inj (hl.symm.trans hl')
      obtain ⟨j, hj, -⟩ := decodeWhole_frame b (bytes.take r.nreq.val) r hl (List.length_take_of_le hlong)
      exact ⟨j, by rw [hcount, hj]⟩
    | none =>
      have hspace : tableSpace b = .payload := by rw [tableSpace, hl]
      rw [hspace] at h ⊢
      obtain ⟨row, hrow, hlong, -⟩ := decodePayload_ok (bytes := bytes) h
      have hcount : encodingLength b - 1 = row.extra := by
        rw [encodingLength, hl, hrow, Nat.add_sub_cancel_left]
      obtain ⟨j, hj, -⟩ := decodeWhole_payload_row hrow (List.length_take_of_le hlong)
      exact ⟨j, by rw [hcount, hj]⟩
  obtain ⟨j, hj⟩ := hwhole
  obtain rfl : i = j := by
    refine eq_of_decode_append (back := bytes.drop (encodingLength b - 1)) (rest := rest) hj ?_
    rwa [List.cons_append, List.take_append_drop]
  exact hj

/-- Settles O5: each word is decoded by computation. -/
theorem someWordsDecode : Obligations.SomeWordsDecode :=
  ⟨rfl, rfl, rfl, rfl, rfl, rfl, rfl, rfl⟩

end Sys2Proof
end

section
/-! Every step but a reset of the block is a move of the wire (00_scope R12): it appends events that stand where they
may and lead to the new levels, and its samples are the target's next answers. From this, the wire's invariant
(10_state R48, 20_memory R61 to R63, R76, 42_debugentry R173). -/

namespace Sys2Proof.Machine

/-! ### The operations of a call -/

theorem moved_commanded (i : Instr) (s : State) : Moved s (s.commanded i.record (wireBytes i).tail) := by
  have hload : Moved s (loadReq (wireBytes i).tail s) := (Moved.refl s).congr rfl rfl rfl rfl
  have hexchange := moved_exchange i.record (loadReq (wireBytes i).tail s) (nresp_record_pos i)
  rw [exchange_eq _ _ (nresp_record_pos i)] at hexchange
  exact hload.trans (hexchange.congr rfl rfl rfl rfl)

theorem moved_attach (p : Config.Sequencing) (s : State) : Moved s (attach p s) :=
  have hattempt (q : SeqState) (u : State) (hu : Moved s u) : Moved s (setSeq q (attempt u)) :=
    hu.trans ((moved_attempt u).congr rfl rfl rfl rfl)
  attachLoop_induction p (Moved s) (fun u hu _ => hattempt _ u hu) (fun u hu _ => hattempt _ u hu)
    (fun _ hu => hu.congr rfl rfl rfl rfl) _ s (Moved.refl s)

/-- One poll: its wait and its read (R189). -/
theorem moved_pollOnce (s : State) : Moved s (pollOnce s).state :=
  have hwait : Moved s (wait .tPoll s) :=
    moved_onWire s s.link [.wait .tPoll] 0 rfl (fun _ => leads_wait _ _) id
  have hcount : Moved s (setPolls (s.oscPolls + 1) (wait .tPoll s)) := hwait.congr rfl rfl rfl rfl
  hcount.trans (moved_readStatusChecked _)

theorem moved_pollOscillator (n : Nat) (s : State) : Moved s (pollOscillator n s).state := by
  induction n generalizing s with
  | zero =>
    rw [pollOscillator]
    split
    · exact Moved.refl s
    · exact (Moved.refl s).congr rfl rfl rfl rfl
  | succ n ih =>
    rw [pollOscillator]
    split
    · exact Moved.refl s
    · exact andThen_induction (Moved s) _ _ (moved_pollOnce s) fun u _ hu => hu.trans (ih u)

theorem moved_approve (s : State) : Moved s (approve s).state := by
  rw [approve]
  split
  · exact (Moved.refl s).congr rfl rfl rfl rfl
  · exact (Moved.refl s).congr rfl rfl rfl rfl

/-- The gating, piece by piece: lock, oscillator, HALT, halt (R185). -/
theorem moved_gateChecks (p : Config.Sequencing) (s : State) : Moved s (gateChecks p s).state := by
  have hstart : Moved s (setGate .gateLock (checkFamily p.expectedFamily s)) :=
    (Moved.refl s).congr rfl rfl rfl rfl
  refine andThen_induction (Moved s) _ _ (hstart.trans (moved_readStatusChecked _)) fun locked _ hlocked => ?_
  have hpolls : Moved s (setPolls 0 (setGate .gateOsc locked)) := hlocked.congr rfl rfl rfl rfl
  refine andThen_induction (Moved s) _ _ (hpolls.trans (moved_pollOscillator _ _)) fun stable _ hstable => ?_
  have hhalted : Moved s (readStatusChecked (issueHalt stable)).state :=
    hstable.trans ((moved_issueHalt stable).trans (moved_readStatusChecked _))
  exact andThen_induction (Moved s) _ _ hhalted fun u _ hu => hu.trans (moved_approve u)

/-! ### Calls and steps -/

/-- Every completed call but a reset of the block is a move of the wire. -/
theorem moved_runCall {c : Call} {s t : State} (h : runCall c s = .next t) (hr : c ≠ .reset) : Moved s t := by
  have hreturned {u : State} (hu : Moved s u) (r : Returned) : Moved s (returning r u) := hu.congr rfl rfl rfl rfl
  rcases runCall_next h with ⟨i, -, hi⟩ | ⟨d, -, -, rfl⟩ | ⟨-, -, -, rfl⟩ | ⟨v, -, -, hd, -, rfl⟩ |
    ⟨-, -, hd, -, rfl⟩ | ⟨x, -, -, hd, -, rfl⟩ | ⟨-, -, hd, -, rfl⟩ | ⟨-, ha⟩ | ⟨-, hg⟩ | ⟨rfl, -⟩
  · obtain ⟨-, -, rfl⟩ := exec_next hi
    exact moved_commanded i s
  · exact hreturned (moved_setDir d s) _
  · exact hreturned (moved_pulseClock s) _
  · exact hreturned (moved_writeBit v s hd) _
  · exact hreturned (moved_readBit s hd) _
  · exact hreturned (moved_writeByte x s hd) _
  · exact hreturned (moved_readByte s hd) _
  · obtain ⟨-, -, -, rfl⟩ := callAttach_next ha
    exact hreturned (moved_attach _ s) _
  · obtain ⟨-, -, -, rfl⟩ := callGate_next hg
    exact hreturned (moved_gateChecks _ s) _
  · exact absurd rfl hr

/-- A step moves the wire, or is a reset of the block. -/
theorem step_moved_or_reset {s t : State} (h : step s = .next t) :
    Moved s t ∨ ∃ rest, s.calls = .reset :: rest ∧ t = resetBlock { s with calls := rest } := by
  rcases step_next h with ⟨-, rfl⟩ | ⟨c, rest, hcalls, hrun⟩
  · exact .inl (Moved.refl _)
  by_cases hr : c = .reset
  · subst hr
    exact .inr ⟨rest, hcalls, (Host.Outcome.next.inj hrun).symm⟩
  · have htaken : Moved s { s with calls := rest } := (Moved.refl s).congr rfl rfl rfl rfl
    exact .inl (htaken.trans (moved_runCall hrun hr))

/-! ### The wire's invariant -/

/-- The wire's invariant: the trace leads from the levels at reset to the pins' levels. -/
theorem wireConsistent_iff {s : State} : WireConsistent s ↔ Leads Link.reset s.trace s.link := by
  simp [WireConsistent, Leads, entersDebugMode]

theorem Moved.wireConsistent {s t : State} (h : Moved s t) (hrest : LinkAtRest s) (hwire : WireConsistent s) :
    LinkAtRest t ∧ WireConsistent t := by
  obtain ⟨evs, n, htrace, -, -, -, hlink⟩ := h
  obtain ⟨hleads, hrest'⟩ := hlink hrest
  rw [wireConsistent_iff] at hwire ⊢
  rw [htrace]
  exact ⟨hrest', hwire.append hleads⟩

theorem Moved.linkAtRest {s t : State} (h : Moved s t) (hrest : LinkAtRest s) : LinkAtRest t := by
  obtain ⟨evs, n, -, -, -, -, hlink⟩ := h
  exact (hlink hrest).2

theorem wireConsistent_resetBlock (s : State) : WireConsistent (resetBlock s) :=
  wireConsistent_iff.2 (Leads.refl Link.reset)

/-- Settles O53: a move of the wire extends what the trace leads to, and a reset of the block begins a trace anew. -/
theorem stepKeepsWireConsistent : Obligations.StepKeepsWireConsistent := by
  intro s t hrest hwire h
  rcases step_moved_or_reset h with hmoved | ⟨rest, -, rfl⟩
  · exact hmoved.wireConsistent hrest hwire
  · exact ⟨⟨rfl, rfl⟩, wireConsistent_resetBlock _⟩

/-- Settles O57: a step that is no reset of the block moves the wire, and its sample count is the counter's advance. -/
theorem traceRecordsEverySample : Obligations.TraceRecordsEverySample := by
  intro s t h hr
  rcases step_moved_or_reset h with ⟨evs, n, htrace, hsamples, hanswers, hsampled, -⟩ | ⟨rest, hcalls, -⟩
  · rw [hsamples, Nat.add_sub_cancel_left]
    exact ⟨evs, htrace, hanswers, hsampled, Nat.le_add_right _ _⟩
  · exact absurd hcalls (hr rest)

end Sys2Proof.Machine
end

section
/-! The instructions in closed form (41_commandchannel R140, 43_boundary R211 to R216), what the wire and the caller see
of one (20_memory R61, R76), and what an instruction leaves unchanged (10_state R28, R40). -/

namespace Sys2Proof.Machine

/-! ### Results -/

/-- Settles O22: each is the exchange of its record, and its answer is the bytes presented. -/
theorem commandsWithoutRequestBytes : Obligations.CommandsWithoutRequestBytes := fun s ho hc =>
  ⟨exec_ready .chipErase s ho hc, exec_ready .rdConfig s ho hc, exec_ready .readStatus s ho hc,
    exec_ready .halt s ho hc, exec_ready .resume s ho hc, exec_ready .getPc s ho hc,
    exec_ready .getChipId s ho hc, rfl, rfl, rfl⟩

/-- Settles O23: each is the exchange of its record with its operands as request bytes. -/
theorem commandsWithRequestBytes : Obligations.CommandsWithRequestBytes := fun s b0 b1 b2 ho hc =>
  ⟨exec_ready (.wrConfig b0) s ho hc, exec_ready (.debugInstr1 b0) s ho hc,
    exec_ready (.debugInstr2 b0 b1) s ho hc, exec_ready (.debugInstr3 b0 b1 b2) s ho hc⟩

/-- Settles O24: each is the exchange of the DEBUG_INSTR record of its length, its payload the request bytes. -/
theorem pseudoOperationsExpand : Obligations.PseudoOperationsExpand := fun s addr addr8 imm ho hc =>
  ⟨⟨exec_ready (.setPointer addr) s ho hc, rfl⟩, ⟨exec_ready .clearAccumulator s ho hc, rfl⟩,
    ⟨exec_ready (.loadAccumulatorImmediate imm) s ho hc, rfl⟩, ⟨exec_ready .readCodeByte s ho hc, rfl⟩,
    ⟨exec_ready .incrementPointer s ho hc, rfl⟩, ⟨exec_ready (.writeSpecialRegister addr8 imm) s ho hc, rfl⟩, rfl⟩

/-- What the caller of a completed instruction is handed (R140). -/
theorem exec_returned {i : Instr} {s t : State} (h : exec i s = .next t) :
    t.returned = .bytes (s.upcomingBytes i.record.nresp.val) := by
  obtain ⟨-, -, rfl⟩ := exec_next h
  rfl

/-! ### The two halves of an exchange -/

/-- What the target takes of the bytes sent, the line switched to OUT before them (R61, R64). -/
theorem latched_sent (l : Link) (sent : List Byte) (hc : l.clk = false) :
    latched l (dirShape l.dataDir .out ++ sent.flatMap writeByteShape) = sent.flatMap bitsMsbFirst := by
  obtain ⟨hreplay, -⟩ := leads_dirShape l .out hc
  obtain ⟨-, hlatched⟩ := leads_bytes_out sent { l with dataDir := .out } hc rfl
  rw [latched_append, latched_dirShape, hreplay, hlatched, List.nil_append]

theorem sampled_sent (was : Dir) (sent : List Byte) :
    sampled (dirShape was .out ++ sent.flatMap writeByteShape) = [] := by
  rw [sampled_append, sampled_dirShape, sampled_bytes_out, List.append_nil]

theorem data_notMem_received (resp : List Byte) (v : Bit) :
    .data v ∉ Event.wait .tDir :: resp.flatMap readByteShape := by
  simp [readByteShape, readBitShape]

theorem dir_notMem_received (resp : List Byte) (d : Dir) :
    .dir d ∉ Event.wait .tDir :: resp.flatMap readByteShape := by
  simp [readByteShape, readBitShape]

/-- Settles O27: the events split at the turn-around; before it stands the frame, of which the target takes the opcode's
bits at least. -/
theorem exchangeIsHalfDuplex : Obligations.ExchangeIsHalfDuplex := by
  intro i s t h
  obtain ⟨-, hc, -⟩ := exec_next h
  refine ⟨_, _, exec_trace h, sampled_sent _ _, data_notMem_received _, dir_notMem_received _, ?_⟩
  rw [latched_sent _ _ hc, wireBytes_eq, List.flatMap_cons]
  exact List.append_ne_nil_of_left_ne_nil (List.cons_ne_nil _ _) _

/-- Settles O28: the events are the exchange of the instruction's frame and of the bytes the target presents. -/
theorem targetTakesTheFrame : Obligations.TargetTakesTheFrame := by
  intro i s t h
  obtain ⟨-, hc, -⟩ := exec_next h
  refine ⟨_, s.upcomingBytes i.record.nresp.val, exec_trace h, ?_, sampled_exchangeShape _ _ _, exec_returned h, ?_⟩
  · rw [wireBytes_eq]
    exact latched_exchangeShape _ _ _ _ hc
  · rw [sampled_exchangeShape, bits_upcomingBytes, length_upcomingBytes]

/-! ### The frame of an instruction -/

/-- Settles O29: the closed form writes the link, the buffers, the trace and the marks alone, and of the buffers only
the entries within the counts. -/
theorem commandsFrame : Obligations.CommandsFrame := by
  intro i s t h
  have htrace := exec_trace h
  have hreq : (wireBytes i).tail.length = i.record.nreq.val := length_request i
  obtain ⟨-, -, rfl⟩ := exec_next h
  have hkept (k : Nat) (old : Byte) (hk : (wireBytes i).length ≤ k + 1) : (wireBytes i).tail.getD k old = old :=
    List.getD_eq_default _ _ (by rw [List.length_tail]; omega)
  refine ⟨rfl, rfl, rfl, rfl, rfl, rfl, rfl, rfl, rfl, rfl, rfl, rfl, rfl, rfl, rfl, rfl, rfl, rfl, rfl, ?_,
    hkept 0 s.req0, hkept 1 s.req1, hkept 2 s.req2, fun hresp => ?_, _, htrace⟩
  · rw [← List.length_tail, hreq]
    rfl
  · exact if_neg (Nat.not_lt.2 hresp)

/-! ### The answers -/

/-- What the block does in an exchange is the same for as many response bytes, whatever they are (R143). -/
theorem driven_readByteShape (x y : Byte) :
    (readByteShape x).map Event.driven = (readByteShape y).map Event.driven := rfl

@[inherit_doc driven_readByteShape]
theorem driven_exchangeShape (was : Dir) (sent : List Byte) {resp other : List Byte}
    (hlen : resp.length = other.length) :
    (exchangeShape was sent resp).map Event.driven = (exchangeShape was sent other).map Event.driven := by
  have hresp : (resp.flatMap readByteShape).map Event.driven = (other.flatMap readByteShape).map Event.driven := by
    induction resp generalizing other with
    | nil => rw [List.length_eq_zero_iff.1 hlen.symm]
    | cons x resp ih =>
      obtain ⟨y, other, rfl⟩ := List.exists_cons_of_length_eq_add_one hlen.symm
      rw [List.flatMap_cons, List.flatMap_cons, List.map_append, List.map_append, driven_readByteShape x y,
        ih (Nat.succ.inj hlen)]
  simp only [exchangeShape, List.map_append, hresp]

/-- Settles O30: the two runs send the same bytes and read as many, and no register but `resp[]` holds an answer. -/
theorem commandsDoNotInterpretResponses : Obligations.CommandsDoNotInterpretResponses := by
  intro i s t other h
  obtain ⟨ho, hc, -⟩ := exec_next h
  have hother := exec_ready i { s with answers := other } ho hc
  refine ⟨_, hother, ?_, ?_⟩
  · rw [exec_trace hother, exec_trace h, List.map_append, List.map_append]
    congr 1
    exact driven_exchangeShape _ _ (by rw [length_upcomingBytes, length_upcomingBytes])
  · obtain ⟨-, -, rfl⟩ := exec_next h
    rfl

end Sys2Proof.Machine
end

section
/-! The two ends of `attach` with the whole state (42_debugentry R183, R232), what it leaves unchanged, and what it puts
on the wire (R182). -/

namespace Sys2Proof.Machine

/-! ### The two ends -/

/-- With no attempt counted, a valid identity at attempt `k + 1` of three and none before ends `attach` Verified
(R183). -/
theorem attach_verified {s : State} {k : Nat} (h0 : s.attempts = 0) (hk : k < 3)
    (hbefore : ∀ j, j < k → identityValid (s.upcomingId j) = false) (hvalid : identityValid (s.upcomingId k) = true) :
    returning .nothing (attach Config.sequencing s) = setSeq .verified (s.afterAttempts (k + 1)) := by
  refine attachLoop_verified _ s k _ (by omega) (fun j hj => ?_) hbefore hvalid
  rw [h0]
  exact attempts_ne_budget j (by omega)

/-- With no attempt counted and no valid identity in three, `attach` raises LinkAbsent (R232). -/
theorem attach_absent {s : State} (h0 : s.attempts = 0)
    (hnone : ∀ j, j < 3 → identityValid (s.upcomingId j) = false) :
    returning .nothing (attach Config.sequencing s) =
      raiseFatal .linkAbsent (setSeq .failed (s.afterAttempts 3)) := by
  rcases attach_cases h0 with ⟨k, hk, hvalid, -⟩ | ⟨-, ht⟩
  · exact absurd ((hnone k hk).symm.trans hvalid) Bool.false_ne_true
  · exact ht

/-- Where no error stands `raise Fatal` records its code (R236). -/
theorem raiseFatal_of_none {s : State} (code : ErrorCode) (he : s.error = .none) :
    raiseFatal code s = { s with error := code } := by
  rw [raiseFatal, if_pos he]

/-- Settles O33: the loop ends at attempt `k`, the first with a valid identity. -/
theorem attachVerifiesAtFirstValidIdentity : Obligations.AttachVerifiesAtFirstValidIdentity := by
  intro s k ho hc hq h0 hpos hk hbefore hvalid
  rw [callAttach_of_idle _ ho hc hq, attach_verified h0 (by omega) hbefore hvalid, Nat.sub_add_cancel hpos]
  rfl

/-- Settles O34: the loop ends at the third attempt, where the budget is reached. -/
theorem attachEndsInLinkAbsent : Obligations.AttachEndsInLinkAbsent := by
  intro s ho hc hq h0 he hnone
  have hstill : (setSeq .failed (s.afterAttempts 3)).error = .none := he
  rw [callAttach_of_idle _ ho hc hq, attach_absent h0 hnone, raiseFatal_of_none _ hstill]
  rfl

/-! ### The frame -/

/-- What holds after any one attempt from `s` and is kept by further ones holds where `attach` ends: it makes at least
one (R171). -/
theorem attach_induction (p : Config.Sequencing) (s : State) (P : State → Prop) (first : ∀ q, P (setSeq q (attempt s)))
    (next : ∀ u q, P u → P (setSeq q (attempt u))) (fatal : ∀ u, P u → P (raiseFatal .linkAbsent u)) :
    P (attach p s) := by
  rw [attach, show 2 ^ 2 = 3 + 1 from rfl, attachLoop_succ]
  split
  · exact first _
  split
  · exact fatal _ (first _)
  · exact attachLoop_induction p P (fun u hu _ => next u _ hu) (fun u hu _ => next u _ hu) fatal 3 _ (first _)

/-- `t` is `s` after attempts: the pins at rest, and the fields written here from `t` itself are the ones an attach may
write; every other field is fixed by `s` (R172 to R179). -/
def AttachWrites (s t : State) : Prop :=
  ∃ evs n, t = { s.onWire { clk := false, dataDir := .inp, dataOut := false, resetN := true } evs n with
    seq := t.seq
    attempts := t.attempts
    chipId := t.chipId
    error := t.error
    resp0 := t.resp0
    resp1 := t.resp1
    held := { s.held with req := 0, resp := 2, chipId := true }
    returned := t.returned }

theorem attachWrites_first (s : State) (q : SeqState) : AttachWrites s (setSeq q (attempt s)) := by
  rw [attempt_eq]
  exact ⟨_, _, rfl⟩

theorem AttachWrites.next {s u : State} (h : AttachWrites s u) (q : SeqState) :
    AttachWrites s (setSeq q (attempt u)) := by
  obtain ⟨evs, n, hu⟩ := h
  obtain ⟨evs', n', ht⟩ := attachWrites_first u q
  refine ⟨evs ++ evs', n + n', ?_⟩
  rw [ht, hu, State.onWire, State.onWire, State.onWire, List.append_assoc, Nat.add_assoc]

theorem attachWrites_attach (p : Config.Sequencing) (s : State) : AttachWrites s (attach p s) := by
  refine attach_induction p s (AttachWrites s) (attachWrites_first s) (fun _ q hu => hu.next q) ?_
  rintro u ⟨evs, n, hu⟩
  exact ⟨evs, n, by rw [hu]; rfl⟩

theorem attachWrites_of_callAttach {p : Config.Sequencing} {s t : State} (h : callAttach p s = .next t) :
    AttachWrites s t := by
  obtain ⟨-, -, -, rfl⟩ := callAttach_next h
  obtain ⟨evs, n, ht⟩ := attachWrites_attach p s
  exact ⟨evs, n, by rw [ht]; rfl⟩

/-- Settles O37: the fields `AttachWrites` does not write, read off one by one. -/
theorem attachFrame : Obligations.AttachFrame := by
  intro s t h
  obtain ⟨evs, n, ht⟩ := attachWrites_of_callAttach h
  rw [ht]
  exact ⟨rfl, rfl, rfl, rfl, rfl, rfl, rfl, rfl, rfl, rfl, rfl, rfl, rfl, rfl, rfl, rfl, rfl, evs, rfl⟩

/-! ### What the target takes -/

/-- From levels `l` the events lead to levels `l'` and put exactly these bytes on the wire at falling edges, bit 7 first
(20_memory R61, R64). -/
def Sends (l : Link) (evs : List Event) (sent : List Byte) (l' : Link) : Prop :=
  l.replay evs = l' ∧ latched l evs = sent.flatMap bitsMsbFirst

theorem Sends.refl (l : Link) : Sends l [] [] l := ⟨rfl, rfl⟩

theorem Sends.append {l m r : Link} {a b : List Event} {x y : List Byte} (ha : Sends l a x m) (hb : Sends m b y r) :
    Sends l (a ++ b) (x ++ y) r := by
  obtain ⟨hreplay, hlatched⟩ := ha
  obtain ⟨hreplay', hlatched'⟩ := hb
  rw [Sends, replay_append, latched_append, hreplay, hlatched, hlatched', List.flatMap_append]
  exact ⟨hreplay', rfl⟩

theorem sends_exchangeShape (l : Link) (x : Byte) (sent resp : List Byte) (hc : l.clk = false) :
    Sends l (exchangeShape l.dataDir (x :: sent) resp) (x :: sent)
      { l with dataDir := .inp, dataOut := ((x :: sent).getLastD 0).getLsbD 0 } :=
  ⟨(leads_exchangeShape l x sent resp hc).1, latched_exchangeShape l x sent resp hc⟩

/-- The bare pulses of the entry sequence give the target no bit, the line being IN (20_memory R81). -/
theorem sends_entryShape (l : Link) (hc : l.clk = false) (hd : l.dataDir = .inp) :
    Sends l entryShape [] { l with resetN := true } := by
  obtain ⟨c, d, o, r⟩ := l
  subst hc hd
  exact ⟨rfl, rfl⟩

/-- One attempt from a line that is IN sends the opcode of GET_CHIP_ID (R182). -/
theorem sends_attemptShape_inp (l : Link) (hi lo : Byte) (hc : l.clk = false) (hd : l.dataDir = .inp) :
    Sends l (attemptShape .inp hi lo) [0x68]
      { l with dataDir := .inp, dataOut := false, resetN := true } := by
  have hexchange := sends_exchangeShape { l with resetN := true } 0x68 [] [hi, lo] hc
  rw [show ({ l with resetN := true } : Link).dataDir = .inp from hd] at hexchange
  exact (sends_entryShape l hc hd).append hexchange

/-- Attempts back to back from a line that is IN send the opcode once each (R182). -/
theorem sends_attempts_inp (hi lo : Nat → Byte) (k : Nat) (l : Link) (hc : l.clk = false) (hd : l.dataDir = .inp) :
    ∃ l', Sends l ((List.range k).flatMap fun j => attemptShape .inp (hi j) (lo j)) (List.replicate k 0x68) l' ∧
      l'.clk = false ∧ l'.dataDir = .inp := by
  induction k with
  | zero => exact ⟨l, Sends.refl l, hc, hd⟩
  | succ k ih =>
    obtain ⟨m, hsends, hclk, hdir⟩ := ih
    rw [List.range_succ, List.flatMap_append, List.flatMap_singleton, List.replicate_succ']
    exact ⟨_, hsends.append (sends_attemptShape_inp m (hi k) (lo k) hclk hdir), hclk, rfl⟩

/-! ### Reset windows -/

/-- An attempt closes the reset window it opens (R174). -/
theorem foldl_windowAfter_attemptShape (was : Dir) (hi lo : Byte) :
    (attemptShape was hi lo).foldl windowAfter none = none := by
  obtain ⟨-, -, -, hexchange⟩ :=
    leads_exchangeShape { clk := false, dataDir := was, dataOut := false, resetN := true } 0x68 [] [hi, lo] rfl
  rw [attemptShape, List.foldl_append]
  exact hexchange

/-- Attempts back to back are as many reset windows of two rising edges (R173). -/
theorem windowEdges_attempts_inp (hi lo : Nat → Byte) (k : Nat) :
    windowEdges none ((List.range k).flatMap fun j => attemptShape .inp (hi j) (lo j)) = List.replicate k 2 ∧
      ((List.range k).flatMap fun j => attemptShape .inp (hi j) (lo j)).foldl windowAfter none = none := by
  induction k with
  | zero => exact ⟨rfl, rfl⟩
  | succ k ih =>
    obtain ⟨hwindows, hclosed⟩ := ih
    rw [List.range_succ, List.flatMap_append, List.flatMap_singleton, windowEdges_append, List.foldl_append, hclosed,
      hwindows, windowEdges_attemptShape, List.replicate_succ']
    exact ⟨rfl, foldl_windowAfter_attemptShape _ _ _⟩

/-- The entry sequence drives no data and takes no sample (R172 to R175). -/
theorem data_sample_notMem_entryShape (v : Bit) : .data v ∉ entryShape ∧ .sample v ∉ entryShape := by
  simp [entryShape, pulseShape]

/-- With no attempt counted, `attach` ends after one, two or three attempts, which `attempts` and the trace agree on
(R172, R184). -/
theorem attach_attempts {s : State} (h0 : s.attempts = 0) :
    ∃ k, 1 ≤ k ∧ k ≤ 3 ∧ (attach Config.sequencing s).attempts = BitVec.ofNat 2 k ∧
      (attach Config.sequencing s).trace = s.trace ++ s.attemptsShape k := by
  have hends {k : Nat} {u : State} (hend : returning .nothing (attach Config.sequencing s) = u)
      (hattempts : u.attempts = (s.afterAttempts k).attempts) (htrace : u.trace = (s.afterAttempts k).trace) :
      (attach Config.sequencing s).attempts = BitVec.ofNat 2 k ∧
        (attach Config.sequencing s).trace = s.trace ++ s.attemptsShape k :=
    ⟨(congrArg State.attempts hend).trans (hattempts.trans (attempts_afterAttempts h0 k)),
      (congrArg State.trace hend).trans htrace⟩
  rcases attach_cases h0 with ⟨k, hk, -, -, hend⟩ | ⟨-, hend⟩
  · exact ⟨k + 1, by omega, hk, hends hend rfl rfl⟩
  · exact ⟨3, by decide, le_rfl, hends hend rfl rfl⟩

/-- Settles O38: an attach is `k` attempts back to back, each a reset window of two edges that sends the one opcode. -/
theorem attachSendsIdentityReadsOnly : Obligations.AttachSendsIdentityReadsOnly := by
  intro s t h0 hin h
  obtain ⟨-, -, -, -, -, -, -, -, -, -, -, -, -, -, hreset, -⟩ := attachFrame s t h
  obtain ⟨-, -, hc, rfl⟩ := callAttach_next h
  obtain ⟨k, hpos, hk, hattempts, htrace⟩ := attach_attempts h0
  refine ⟨hreset, k, hpos, hk, hattempts, htrace, ?_, ?_, data_sample_notMem_entryShape⟩
  · obtain ⟨l, ⟨-, hlatched⟩, -⟩ := sends_attempts_inp (fun j => s.upcomingByte (16 * j))
      (fun j => s.upcomingByte (16 * j + 8)) k s.link hc hin
    rwa [attemptsShape_inp hin]
  · rw [attemptsShape_inp hin]
    exact (windowEdges_attempts_inp (fun j => s.upcomingByte (16 * j)) (fun j => s.upcomingByte (16 * j + 8)) k).1

end Sys2Proof.Machine
end

section
/-! How `gate` ends (42_debugentry R185 to R192, 60_exceptions R233 to R235): which status byte decides, each end with
the whole state, and that a gating is approved exactly where the status bytes pass. -/

namespace Sys2Proof.Machine

/-! ### The deciding status byte -/

/-- Status byte `k` is the first that does not ask for another poll: it shows the lock or a stable oscillator (R188,
R189). -/
def State.decidesAt (s : State) (k : Nat) : Prop := (∀ j, j < k → s.stillUnstable j) ∧ ¬s.stillUnstable k

theorem State.decidesAt_unique {s : State} {k m : Nat} (hk : s.decidesAt k) (hm : s.decidesAt m) : k = m := by
  rcases Nat.lt_trichotomy k m with hlt | heq | hgt
  · exact absurd (hm.1 k hlt) hk.2
  · exact heq
  · exact absurd (hk.1 m hgt) hm.2

theorem State.decidesAt_of_locked {s : State} {k : Nat} (hbefore : ∀ j, j < k → s.stillUnstable j)
    (hlocked : debugLocked (s.upcomingByte (8 * k)) = true) : s.decidesAt k :=
  ⟨hbefore, fun hstill => Bool.false_ne_true (hstill.1.symm.trans hlocked)⟩

theorem State.stableAfter.decidesAt {s : State} {k : Nat} (h : s.stableAfter k) : s.decidesAt k :=
  ⟨h.1, fun hstill => Bool.false_ne_true (hstill.2.symm.trans h.2.2)⟩

theorem State.stableAfter.unlocked {s : State} {k j : Nat} (h : s.stableAfter k) (hj : j ≤ k) :
    debugLocked (s.upcomingByte (8 * j)) = false := by
  obtain ⟨hbefore, hunlocked, -⟩ := h
  rcases Nat.lt_or_eq_of_le hj with hlt | rfl
  · exact (hbefore j hlt).1
  · exact hunlocked

/-! ### The ends of the checks -/

/-- Where a locked byte ends a gating after `k` polls; `osc_polls` is not yet written at the first read (R187, R189). -/
def State.lockedRead (expected : Byte) (s : State) (k : Nat) : State :=
  setPolls (if k = 0 then s.oscPolls else BitVec.ofNat 6 k) (s.polled expected k)

/-- `gateChecks_cases` for the parameters' own family: the lock at byte `k`, all polls used, or HALT after `k` polls. -/
theorem gateChecks_locked_or_unstable_or_stable (p : Config.Sequencing) (s : State) :
    (∃ k, k ≤ p.maxOscPolls ∧ (∀ j, j < k → s.stillUnstable j) ∧ debugLocked (s.upcomingByte (8 * k)) = true ∧
      gateChecks p s = failGate .debugLocked (s.lockedRead p.expectedFamily k)) ∨
    ((∀ j, j ≤ p.maxOscPolls → s.stillUnstable j) ∧
      gateChecks p s = failGate .oscillatorUnstable (s.polled p.expectedFamily p.maxOscPolls)) ∨
    (∃ k, k ≤ p.maxOscPolls ∧ s.stableAfter k ∧
      gateChecks p s =
        if debugLocked (s.upcomingByte (8 * (k + 2))) then failGate .debugLocked (s.haltRead p.expectedFamily k)
        else approve (s.haltRead p.expectedFamily k)) := by
  rcases gateChecks_cases p s with ⟨hlocked, h⟩ | ⟨-, k, hk, hbefore, ⟨hpos, hlocked, h⟩ | ⟨rfl, hstill, h⟩ | ⟨hs, h⟩⟩
  · refine .inl ⟨0, Nat.zero_le _, nofun, hlocked, (h p.expectedFamily).trans ?_⟩
    rw [statusRead_gateLock]
    rfl
  · refine .inl ⟨k, hk, hbefore, hlocked, (h p.expectedFamily).trans ?_⟩
    rw [State.lockedRead, if_neg (by omega)]
    rfl
  · refine .inr (.inl ⟨fun j hj => ?_, h p.expectedFamily⟩)
    rcases Nat.lt_or_eq_of_le hj with hlt | rfl
    · exact hbefore j hlt
    · exact hstill
  · exact .inr (.inr ⟨k, hk, hs, h p.expectedFamily⟩)

theorem gateChecks_of_locked {p : Config.Sequencing} {s : State} {k : Nat} (hk : k ≤ p.maxOscPolls)
    (hbefore : ∀ j, j < k → s.stillUnstable j) (hlocked : debugLocked (s.upcomingByte (8 * k)) = true) :
    gateChecks p s = failGate .debugLocked (s.lockedRead p.expectedFamily k) := by
  have hdecides := State.decidesAt_of_locked hbefore hlocked
  rcases gateChecks_locked_or_unstable_or_stable p s with ⟨m, -, hbefore', hlocked', h⟩ | ⟨hall, -⟩ | ⟨m, -, hs, -⟩
  · rwa [State.decidesAt_unique hdecides (State.decidesAt_of_locked hbefore' hlocked')]
  · exact absurd (hall k hk) hdecides.2
  · obtain rfl := State.decidesAt_unique hdecides hs.decidesAt
    exact absurd ((hs.unlocked le_rfl).symm.trans hlocked) Bool.false_ne_true

theorem gateChecks_of_unstable {p : Config.Sequencing} {s : State}
    (hall : ∀ j, j ≤ p.maxOscPolls → s.stillUnstable j) :
    gateChecks p s = failGate .oscillatorUnstable (s.polled p.expectedFamily p.maxOscPolls) := by
  rcases gateChecks_locked_or_unstable_or_stable p s with ⟨k, hk, hbefore, hlocked, -⟩ | ⟨-, h⟩ | ⟨k, hk, hs, -⟩
  · exact absurd (hall k hk) (State.decidesAt_of_locked hbefore hlocked).2
  · exact h
  · exact absurd (hall k hk) hs.decidesAt.2

theorem gateChecks_of_stable {p : Config.Sequencing} {s : State} {k : Nat} (hk : k ≤ p.maxOscPolls)
    (hs : s.stableAfter k) :
    gateChecks p s =
      if debugLocked (s.upcomingByte (8 * (k + 2))) then failGate .debugLocked (s.haltRead p.expectedFamily k)
      else approve (s.haltRead p.expectedFamily k) := by
  rcases gateChecks_locked_or_unstable_or_stable p s with ⟨m, -, hbefore, hlocked, -⟩ | ⟨hall, -⟩ | ⟨m, -, hs', h⟩
  · obtain rfl := State.decidesAt_unique hs.decidesAt (State.decidesAt_of_locked hbefore hlocked)
    exact absurd ((hs.unlocked le_rfl).symm.trans hlocked) Bool.false_ne_true
  · exact absurd (hall k hk) hs.decidesAt.2
  · rwa [State.decidesAt_unique hs.decidesAt hs'.decidesAt]

/-- The gating passes: the oscillator stable after `k` polls, and the byte after HALT unlocked and halted (R191,
R192). -/
def State.passesAfter (s : State) (k : Nat) : Prop :=
  s.stableAfter k ∧ debugLocked (s.upcomingByte (8 * (k + 2))) = false ∧
    cpuHalted (s.upcomingByte (8 * (k + 2))) = true

theorem gateChecks_of_passes {p : Config.Sequencing} {s : State} {k : Nat} (hk : k ≤ p.maxOscPolls)
    (h : s.passesAfter k) :
    gateChecks p s = .goOn (grantExtraction (setGate .approved (s.haltRead p.expectedFamily k))) := by
  obtain ⟨hs, hunlocked, hhalted⟩ := h
  rw [gateChecks_of_stable hk hs, approve_haltRead, hunlocked, hhalted]
  rfl

theorem gateChecks_of_halt_fails {p : Config.Sequencing} {s : State} {k : Nat} (hk : k ≤ p.maxOscPolls)
    (hs : s.stableAfter k)
    (hfails : debugLocked (s.upcomingByte (8 * (k + 2))) = true ∨ cpuHalted (s.upcomingByte (8 * (k + 2))) = false) :
    gateChecks p s =
      failGate (if debugLocked (s.upcomingByte (8 * (k + 2))) then .debugLocked else .haltVerificationFailed)
        (s.haltRead p.expectedFamily k) := by
  rw [gateChecks_of_stable hk hs, approve_haltRead]
  cases hl : debugLocked (s.upcomingByte (8 * (k + 2))) with
  | true => rfl
  | false =>
    rw [hfails.resolve_left (by simp [hl])]
    rfl

/-! ### Each end as a client's call, with the whole state -/

/-- Where no error stands, a fatal end writes `gate` and `error` (R236). -/
theorem state_failGate {s : State} (code : ErrorCode) (he : s.error = .none) :
    (failGate code s).state = { s with gate := .gateFatal, error := code } :=
  raiseFatal_of_none code (s := setGate .gateFatal s) he

/-- A gating whose checks end fatal in `u`. -/
theorem callGate_of_fatal {p : Config.Sequencing} {s u : State} {code : ErrorCode} (ho : s.session = .opened)
    (hc : s.link.clk = false) (hr : s.seq = .verified ∧ s.gate = .gateIdle ∧ s.error = .none)
    (h : gateChecks p s = failGate code u) (hu : u.error = s.error) :
    callGate p s = .next { u with gate := .gateFatal, error := code, returned := .nothing } := by
  rw [callGate_of_ready p ho hc hr, h, state_failGate code (hu.trans hr.2.2)]
  rfl

/-- Settles O39: the gating passes, so it goes on to the approval. -/
theorem gateApproves : Obligations.GateApproves := by
  intro s k ho hc hq hg he hk hs hunlocked hhalted
  rw [callGate_of_ready _ ho hc ⟨hq, hg, he⟩,
    gateChecks_of_passes (p := Config.sequencing) hk ⟨hs, hunlocked, hhalted⟩]
  rfl

/-- Settles O40: byte `j` decides, by the lock; `osc_polls` is written by a poll only. -/
theorem gateEndsLockedBeforeHalt : Obligations.GateEndsLockedBeforeHalt := by
  intro s j ho hc hq hg he hj hbefore hlocked
  refine ⟨if j = 0 then s.oscPolls else BitVec.ofNat 6 j, fun hzero => if_pos hzero, fun hpos => if_neg (by omega), ?_⟩
  exact callGate_of_fatal ho hc ⟨hq, hg, he⟩ (gateChecks_of_locked hj hbefore hlocked) rfl

/-- Settles O42: after HALT the lock names the error, else the missing halt does. -/
theorem gateEndsFatalAfterHalt : Obligations.GateEndsFatalAfterHalt := by
  intro s k ho hc hq hg he hk hs hfails
  exact callGate_of_fatal ho hc ⟨hq, hg, he⟩ (gateChecks_of_halt_fails hk hs hfails) rfl

/-! ### The least duration of the polls -/

theorem pollsShape_succ (s : State) (k : Nat) :
    s.pollsShape (k + 1) = s.pollsShape k ++ pollShape (s.upcomingByte (8 * (k + 1))) := by
  simp only [State.pollsShape, List.range_succ, List.flatMap_append, List.flatMap_singleton, List.append_assoc]

/-- A status read takes some time: its clock half-periods are longer than 0 (R8, R142). -/
theorem leastDuration_statusShape_pos {time : Delay → Real} (ht : Config.Timing time) (was : Dir) (st : Byte) :
    0 < leastDuration time (statusShape was st) := by
  obtain ⟨hhalf, hdir, hpre, -⟩ := ht
  rw [statusShape, leastDuration_exchangeShape]
  have hfirst : 0 ≤ if was = .out then 0 else time .tDir := by
    split
    · exact le_rfl
    · exact hdir
  simp only [List.length_cons, List.length_nil]
  push_cast
  linarith

/-- A poll takes more than its wait of one millisecond (R8, R189). -/
theorem one_lt_leastDuration_pollShape {time : Delay → Real} (ht : Config.Timing time) (st : Byte) :
    1 < leastDuration time (pollShape st) := by
  have hread := leastDuration_statusShape_pos ht .inp st
  obtain ⟨-, -, -, -, -, hpoll⟩ := ht
  have hwait : leastDuration time [.wait .tPoll] = 1 := by simpa [leastDuration] using hpoll
  rw [show pollShape st = [.wait .tPoll] ++ statusShape .inp st from rfl, leastDuration_append, hwait]
  linarith

/-- `k` polls take more than `k` milliseconds (R189, R280). -/
theorem lt_leastDuration_pollsShape {time : Delay → Real} (ht : Config.Timing time) (s : State) (k : Nat) :
    (k : Real) < leastDuration time (s.pollsShape k) := by
  induction k with
  | zero => simpa [State.pollsShape] using leastDuration_statusShape_pos ht _ _
  | succ k ih =>
    have hpoll := one_lt_leastDuration_pollShape ht (s.upcomingByte (8 * (k + 1)))
    rw [pollsShape_succ, leastDuration_append]
    push_cast
    linarith

/-- Settles O41: no byte decides, so the fiftieth poll is the last. -/
theorem gateEndsUnstable : Obligations.GateEndsUnstable := by
  intro s ho hc hq hg he hall
  refine ⟨?_, fun time ht => by exact_mod_cast lt_leastDuration_pollsShape ht s 50⟩
  exact callGate_of_fatal ho hc ⟨hq, hg, he⟩
    (gateChecks_of_unstable fun j hj => hall j (Nat.lt_succ_of_le hj)) rfl

/-! ### Approved or fatal -/

/-- Where a gating can end fatal: at a lock, at the last poll, or after HALT. -/
def State.gateStops (s u : State) : Prop :=
  ∃ k, k ≤ 50 ∧
    (u = s.lockedRead Config.expectedFamily k ∨ u = s.polled Config.expectedFamily k ∨
      u = s.haltRead Config.expectedFamily k)

/-- A gating passes and is approved, or stops with one of its codes and is fatal (R185). -/
theorem gate_cases (s : State) :
    (∃ k, k ≤ 50 ∧ s.passesAfter k ∧
      gateChecks Config.sequencing s =
        .goOn (grantExtraction (setGate .approved (s.haltRead Config.expectedFamily k)))) ∨
    (∃ u code, s.gateStops u ∧ code ∈ Call.gate.fatalCodes ∧ gateChecks Config.sequencing s = failGate code u) := by
  rcases gateChecks_locked_or_unstable_or_stable Config.sequencing s with ⟨k, hk, -, -, h⟩ | ⟨-, h⟩ | ⟨k, hk, hs, h⟩
  · exact .inr ⟨_, _, ⟨k, hk, .inl rfl⟩, by decide, h⟩
  · exact .inr ⟨_, _, ⟨50, le_rfl, .inr (.inl rfl)⟩, by decide, h⟩
  by_cases hpass : s.passesAfter k
  · exact .inl ⟨k, hk, hpass, gateChecks_of_passes hk hpass⟩
  · refine .inr ⟨_, _, ⟨k, hk, .inr (.inr rfl)⟩, ?_, gateChecks_of_halt_fails hk hs ?_⟩
    · split <;> decide
    · by_contra hneither
      rw [not_or, Bool.not_eq_true, Bool.not_eq_false] at hneither
      exact hpass ⟨hs, hneither⟩

/-- The registers at a stop that the gating has not written are still those of its start (R193). -/
theorem State.gateStops.kept {s u : State} (h : s.gateStops u) :
    u.seq = s.seq ∧ u.error = s.error ∧ u.extractOk = s.extractOk := by
  obtain ⟨k, -, rfl | rfl | rfl⟩ := h <;> exact ⟨rfl, rfl, rfl⟩

/-- Settles O43: one of the two ends of `gate_cases`, of which a passing gating has the first alone. -/
theorem gateOutcomeLaw : Obligations.GateOutcomeLaw := by
  intro s ho hc hq hg he hx
  rcases gate_cases s with ⟨k, hk, hpass, h⟩ | ⟨u, code, hstop, hcode, h⟩
  · refine ⟨_, callGate_of_ready _ ho hc ⟨hq, hg, he⟩, ?_⟩
    rw [h]
    exact ⟨hq, .inl ⟨rfl, rfl, he⟩, iff_of_true rfl ⟨k, hk, hpass⟩⟩
  · obtain ⟨hseq, herror, hextract⟩ := hstop.kept
    have hfatal : u.extractOk = false := hextract.trans hx
    refine ⟨_, callGate_of_fatal ho hc ⟨hq, hg, he⟩ h herror, hseq.trans hq, .inr ⟨rfl, hfatal, ?_⟩,
      iff_of_false (by simp [hfatal]) ?_⟩
    · simpa [Call.fatalCodes] using hcode
    · rintro ⟨k, hk, hpass⟩
      cases h.symm.trans (gateChecks_of_passes (p := Config.sequencing) hk hpass)

end Sys2Proof.Machine
end

section
/-! What a gating puts on the wire (42_debugentry R195): the bytes the target takes, the poll waits, and no reset. -/

namespace Sys2Proof.Machine

/-! ### The bytes sent -/

/-- The levels a one-byte read of the sequencer ends with: the line IN, bit 0 of 0x34 or 0x44 in the latch. -/
def Link.afterRead (l : Link) : Link := { l with dataDir := .inp, dataOut := false }

theorem sends_statusShape (l : Link) (st : Byte) (hc : l.clk = false) :
    Sends l (statusShape l.dataDir st) [0x34] l.afterRead :=
  sends_exchangeShape l 0x34 [] [st] hc

theorem sends_pollShape (l : Link) (st : Byte) (hc : l.clk = false) :
    Sends l.afterRead (pollShape st) [0x34] l.afterRead :=
  have hwait : Sends l.afterRead [.wait .tPoll] [] l.afterRead := ⟨rfl, rfl⟩
  hwait.append (sends_statusShape l.afterRead st hc)

theorem sends_pollsShape (s : State) (k : Nat) (hc : s.link.clk = false) :
    Sends s.link (s.pollsShape k) (List.replicate (k + 1) 0x34) s.link.afterRead := by
  induction k with
  | zero => simpa [State.pollsShape] using sends_statusShape s.link (s.upcomingByte 0) hc
  | succ k ih =>
    rw [pollsShape_succ, List.replicate_succ']
    exact ih.append (sends_pollShape s.link _ hc)

theorem sends_haltedShape (s : State) (k : Nat) (hc : s.link.clk = false) :
    Sends s.link (s.haltedShape k) (List.replicate (k + 1) 0x34 ++ [0x44, 0x34]) s.link.afterRead :=
  have hhalt : Sends s.link.afterRead (haltShape (s.upcomingByte (8 * (k + 1)))) [0x44] s.link.afterRead :=
    sends_exchangeShape s.link.afterRead 0x44 [] _ hc
  (sends_pollsShape s k hc).append (hhalt.append (sends_statusShape s.link.afterRead _ hc))

/-! ### The poll waits, and no reset -/

theorem poll_notMem_exchangeShape (was : Dir) (sent resp : List Byte) :
    .wait .tPoll ∉ exchangeShape was sent resp := by
  have hdir : .wait .tPoll ∉ dirShape was .out := by unfold dirShape; split <;> simp
  simp [exchangeShape, hdir, writeByteShape, writeBitShape, readByteShape, readBitShape]

theorem count_poll_pollsShape (s : State) (k : Nat) : (s.pollsShape k).count (.wait .tPoll) = k := by
  have hread (was : Dir) (st : Byte) : (statusShape was st).count (.wait .tPoll) = 0 :=
    List.count_eq_zero.2 (poll_notMem_exchangeShape _ _ _)
  induction k with
  | zero => simp [State.pollsShape, hread]
  | succ k ih => rw [pollsShape_succ, List.count_append, ih, pollShape, List.count_cons_self, hread]

theorem count_poll_haltedShape (s : State) (k : Nat) : (s.haltedShape k).count (.wait .tPoll) = k := by
  rw [State.haltedShape, List.count_append, List.count_append, count_poll_pollsShape, haltShape, statusShape,
    List.count_eq_zero.2 (poll_notMem_exchangeShape _ _ _), List.count_eq_zero.2 (poll_notMem_exchangeShape _ _ _)]
  rfl

theorem rst_notMem_pollsShape (s : State) (k : Nat) (v : Bit) : .rst v ∉ s.pollsShape k := by
  simp [State.pollsShape, pollShape, statusShape, rst_notMem_exchangeShape]

theorem rst_notMem_haltedShape (s : State) (k : Nat) (v : Bit) : .rst v ∉ s.haltedShape k := by
  simp [State.haltedShape, haltShape, statusShape, rst_notMem_pollsShape, rst_notMem_exchangeShape]

/-- A gating's events: the polls, or the polls with HALT and the read after it (R195). -/
theorem trace_gateChecks (s : State) :
    ∃ k, k ≤ 50 ∧
      ((gateChecks Config.sequencing s).state.trace = s.trace ++ s.pollsShape k ∨
        (gateChecks Config.sequencing s).state.trace = s.trace ++ s.haltedShape k) := by
  rcases gate_cases s with ⟨k, hk, -, h⟩ | ⟨u, code, ⟨k, hk, rfl | rfl | rfl⟩, -, h⟩
  all_goals rw [h]
  · exact ⟨k, hk, .inr rfl⟩
  · exact ⟨k, hk, .inl rfl⟩
  · exact ⟨k, hk, .inl rfl⟩
  · exact ⟨k, hk, .inr rfl⟩

/-- Settles O47: the bytes sent are 0x34 once and per poll, and after HALT's 0x44 once more. -/
theorem gateExchangeBudget : Obligations.GateExchangeBudget := by
  intro s t h
  obtain ⟨-, -, hc, rfl⟩ := callGate_next h
  obtain ⟨k, hk, htrace | htrace⟩ := trace_gateChecks s
  · have hreads : (List.replicate (k + 1) (0x34 : Byte)).count 0x34 = k + 1 := List.count_replicate_self
    have hhalts : (List.replicate (k + 1) (0x34 : Byte)).count 0x44 = 0 := by simp [List.count_replicate]
    exact ⟨_, _, htrace, (sends_pollsShape s k hc).2, fun b hb => .inl (List.eq_of_mem_replicate hb), by omega,
      by omega, by omega, rst_notMem_pollsShape s k, (count_poll_pollsShape s k).trans_le hk⟩
  · have hreads : (List.replicate (k + 1) (0x34 : Byte) ++ [0x44, 0x34]).count 0x34 = k + 2 := by
      rw [List.count_append, List.count_replicate_self]
      rfl
    have hhalts : (List.replicate (k + 1) (0x34 : Byte) ++ [0x44, 0x34]).count 0x44 = 1 := by
      simp [List.count_replicate]
    refine ⟨_, _, htrace, (sends_haltedShape s k hc).2, fun b hb => ?_, by omega, by omega, by omega,
      rst_notMem_haltedShape s k, (count_poll_haltedShape s k).trans_le hk⟩
    rcases List.mem_append.1 hb with hpoll | hhalt
    · exact .inl (List.eq_of_mem_replicate hpoll)
    · simpa [or_comm] using hhalt

end Sys2Proof.Machine
end

section
/-! The registers' invariant from step to step (10_state R29, R30, R35 to R37, R48 to R50): the calls that leave the
sequencer's registers alone, an attach, a gating and a reset of the block each keep it; and what it says of
`extract_ok`. -/

namespace Sys2Proof.Machine

/-! ### The calls that are not the sequencer's -/

/-- `t` is `s` but for the link, the request and response buffers, the trace and what is outside the registers: the
fields written here from `t` itself. Every register and mark of the sequencer is fixed by `s` (R40). -/
def KeepsSequencer (s t : State) : Prop :=
  t = { s with
    link := t.link
    req0 := t.req0
    req1 := t.req1
    req2 := t.req2
    resp0 := t.resp0
    resp1 := t.resp1
    trace := t.trace
    held := { s.held with req := t.held.req, resp := t.held.resp }
    samples := t.samples
    calls := t.calls
    returned := t.returned }

/-- Only an attach, a gating and a reset of the block write a register of the sequencer (R40). -/
theorem keepsSequencer_runCall {c : Call} {s t : State} (h : runCall c s = .next t) (ha : c ≠ .attach)
    (hg : c ≠ .gate) (hr : c ≠ .reset) : KeepsSequencer s t := by
  rcases runCall_next h with ⟨i, -, hi⟩ | ⟨d, -, -, rfl⟩ | ⟨-, -, -, rfl⟩ | ⟨v, -, -, -, -, rfl⟩ |
    ⟨-, -, -, -, rfl⟩ | ⟨x, -, -, -, -, rfl⟩ | ⟨-, -, -, -, rfl⟩ | ⟨rfl, -⟩ | ⟨rfl, -⟩ | ⟨rfl, -⟩
  · obtain ⟨-, -, rfl⟩ := exec_next hi
    rfl
  · rw [setDir_eq]
    rfl
  · rw [pulseClock_eq]
    rfl
  · rw [writeBit_eq]
    rfl
  · rw [readBit_snd]
    rfl
  · rw [writeByte_eq]
    rfl
  · rw [readByte_snd]
    rfl
  · exact absurd rfl ha
  · exact absurd rfl hg
  · exact absurd rfl hr

/-! ### The invariant, by the values of `state` and `gate` -/

theorem attachConsistent_of_idle {s : State} (hq : s.seq = .idle) :
    AttachConsistent s ↔ s.attempts = 0 ∧ s.error = .none ∧ s.gate = .gateIdle := by
  rw [AttachConsistent, hq]

theorem attachConsistent_of_verified {s : State} (hq : s.seq = .verified) :
    AttachConsistent s ↔
      s.attempts ≠ 0 ∧ s.held.chipId = true ∧ identityValid s.chipId = true ∧ s.error ≠ .linkAbsent := by
  rw [AttachConsistent, hq]

theorem attachConsistent_of_failed {s : State} (hq : s.seq = .failed) :
    AttachConsistent s ↔ s.attempts.toNat = 3 ∧ s.held.chipId = true ∧ identityValid s.chipId = false ∧
      s.error = .linkAbsent ∧ s.gate = .gateIdle := by
  rw [AttachConsistent, hq]
  rfl

theorem gateConsistent_of_gateIdle {s : State} (hg : s.gate = .gateIdle) :
    GateConsistent s ↔
      s.extractOk = false ∧ s.warnFamily = false ∧ s.oscPolls = 0 ∧ (s.error = .none ∨ s.error = .linkAbsent) := by
  rw [GateConsistent, hg]

theorem gateConsistent_of_approved {s : State} (hg : s.gate = .approved) :
    GateConsistent s ↔ s.extractOk = true ∧ s.seq = .verified ∧ s.error = .none ∧ s.held.status = true ∧
      s.held.haltResp = true ∧ debugLocked s.status = false ∧ cpuHalted s.status = true ∧
      s.warnFamily = familyMismatch Config.expectedFamily s.chipId := by
  rw [GateConsistent, hg]
  rfl

theorem gateConsistent_of_gateFatal {s : State} (hg : s.gate = .gateFatal) :
    GateConsistent s ↔ s.extractOk = false ∧ s.seq = .verified ∧ s.held.status = true ∧
      s.warnFamily = familyMismatch Config.expectedFamily s.chipId ∧ s.error ∈ Call.gate.fatalCodes := by
  rw [GateConsistent, hg]
  simp [Call.fatalCodes, Config.sequencing]

/-! ### What each kind of call keeps -/

theorem KeepsSequencer.registersConsistent {s t : State} (h : KeepsSequencer s t) (hrest : LinkAtRest t)
    (hs : RegistersConsistent s) : RegistersConsistent t := by
  obtain ⟨ho, -, hattach, hgate, hpolls⟩ := hs
  rw [h] at hrest ⊢
  exact ⟨ho, hrest, hattach, hgate, hpolls⟩

theorem registersConsistent_reset : RegistersConsistent State.reset :=
  ⟨rfl, ⟨rfl, rfl⟩, (attachConsistent_of_idle rfl).2 ⟨rfl, rfl, rfl⟩,
    (gateConsistent_of_gateIdle rfl).2 ⟨rfl, rfl, rfl, .inl rfl⟩, Nat.zero_le _⟩

theorem registersConsistent_resetBlock (s : State) : RegistersConsistent (resetBlock s) := registersConsistent_reset

/-- Settles O52: the registers' invariant by the values of R46, the wire's by the empty trace. -/
theorem invariantsHoldAtReset : Obligations.InvariantsHoldAtReset :=
  ⟨registersConsistent_reset, wireConsistent_iff.2 (Leads.refl Link.reset)⟩

/-- The attempts counted from 0 do not turn the two-bit counter over (R178). -/
theorem attempts_ofNat_ne_zero : ∀ k, k < 3 → BitVec.ofNat 2 (k + 1) ≠ 0 := by decide

/-- An attach keeps the invariant at either of its ends: it starts Idle, so with no attempt and no error (R181). -/
theorem registersConsistent_callAttach {s t : State} (hs : RegistersConsistent s)
    (h : callAttach Config.sequencing s = .next t) : RegistersConsistent t := by
  obtain ⟨-, -, hattach, hgate, hbudget⟩ := hs
  obtain ⟨hsession, -, -, -, -, hwarn, hgateReg, hpolls, hextract, -, -, -, -, -, hresetN, hclk, -⟩ :=
    attachFrame s t h
  obtain ⟨ho, hq, -, ht⟩ := callAttach_next h
  obtain ⟨h0, he, hg⟩ := (attachConsistent_of_idle hq).1 hattach
  obtain ⟨hextract', hwarn', hpolls', -⟩ := (gateConsistent_of_gateIdle hg).1 hgate
  have hidle : t.gate = .gateIdle := hgateReg.trans hg
  suffices hend : AttachConsistent t ∧ (t.error = .none ∨ t.error = .linkAbsent) by
    obtain ⟨hattach', herror⟩ := hend
    exact ⟨hsession.trans ho, ⟨hclk, hresetN⟩, hattach', (gateConsistent_of_gateIdle hidle).2
      ⟨hextract.trans hextract', hwarn.trans hwarn', hpolls.trans hpolls', herror⟩, by rwa [hpolls]⟩
  rcases attach_cases h0 with ⟨k, hk, hvalid, -, hend⟩ | ⟨hnone, hend⟩
  · have hnoError : (setSeq .verified (s.afterAttempts (k + 1))).error = .none := he
    have hcounted : (setSeq .verified (s.afterAttempts (k + 1))).attempts ≠ 0 := by
      rw [setSeq_attempts, attempts_afterAttempts h0]
      exact attempts_ofNat_ne_zero k hk
    rw [ht, hend]
    exact ⟨(attachConsistent_of_verified rfl).2 ⟨hcounted, rfl, hvalid, ne_of_eq_of_ne hnoError (by decide)⟩,
      .inl hnoError⟩
  · have hraised : (raiseFatal .linkAbsent (setSeq .failed (s.afterAttempts 3))).error = .linkAbsent := if_pos he
    have hcounted : (raiseFatal .linkAbsent (setSeq .failed (s.afterAttempts 3))).attempts.toNat = 3 := by
      rw [raiseFatal_attempts, setSeq_attempts, attempts_afterAttempts h0]
      rfl
    rw [ht, hend]
    exact ⟨(attachConsistent_of_failed rfl).2 ⟨hcounted, rfl, hnone 2 (by decide), hraised, hg⟩, .inr hraised⟩

/-- Up to 50 polls do not turn the six-bit counter over (R189). -/
theorem toNat_polls_le {k : Nat} (hk : k ≤ 50) : (BitVec.ofNat 6 k).toNat ≤ 50 := by
  rw [BitVec.toNat_ofNat]
  omega

/-- The gating's registers where it can end fatal, from a first gating (R186, R188, R189). -/
theorem State.gateStops.written {s u : State} (h : s.gateStops u) (hpolls : s.oscPolls = 0) :
    u.held.status = true ∧ u.warnFamily = (s.warnFamily || familyMismatch Config.expectedFamily s.chipId) ∧
      u.oscPolls.toNat ≤ 50 := by
  obtain ⟨k, hk, rfl | rfl | rfl⟩ := h
  · refine ⟨rfl, rfl, ?_⟩
    rw [State.lockedRead, setPolls_oscPolls]
    split
    · simp [hpolls]
    · exact toNat_polls_le hk
  · exact ⟨rfl, rfl, toNat_polls_le hk⟩
  · exact ⟨rfl, rfl, toNat_polls_le hk⟩

/-- A gating keeps the invariant at either of its ends: it starts Verified with no error (R194). -/
theorem registersConsistent_callGate {s t : State} (hs : RegistersConsistent s)
    (h : callGate Config.sequencing s = .next t) : RegistersConsistent t := by
  obtain ⟨-, ⟨-, hreset⟩, hattach, hgate, -⟩ := hs
  obtain ⟨hseq, hsession, hattempts, hchip, -, -, -, -, hheld, -, -, hresetN, hclk, -⟩ := gateFrame s t h
  obtain ⟨ho, ⟨hq, hg, he⟩, hc, ht⟩ := callGate_next h
  obtain ⟨hcounted, hid, hvalid, -⟩ := (attachConsistent_of_verified hq).1 hattach
  obtain ⟨hextract, hwarn, hpolls, -⟩ := (gateConsistent_of_gateIdle hg).1 hgate
  have hverified : t.seq = .verified := hseq.trans hq
  have hattach' (herror : t.error ≠ .linkAbsent) : AttachConsistent t := by
    rw [attachConsistent_of_verified hverified, hattempts, hheld, hchip]
    exact ⟨hcounted, hid, hvalid, herror⟩
  suffices hend : t.error ≠ .linkAbsent ∧ GateConsistent t ∧ t.oscPolls.toNat ≤ 50 by
    obtain ⟨herror, hgate', hbudget⟩ := hend
    exact ⟨hsession.trans ho, ⟨hclk, hresetN.trans hreset⟩, hattach' herror, hgate', hbudget⟩
  have hfamily : (s.warnFamily || familyMismatch Config.expectedFamily s.chipId) =
      familyMismatch Config.expectedFamily s.chipId := by rw [hwarn, Bool.false_or]
  rcases gate_cases s with ⟨k, hk, ⟨-, hunlocked, hhalted⟩, hcheck⟩ | ⟨u, code, hstop, hcode, hcheck⟩
  · have hnoError : t.error = .none := by
      rw [ht, hcheck]
      exact he
    refine ⟨ne_of_eq_of_ne hnoError (by decide), ?_, ?_⟩
    · rw [ht, hcheck]
      exact (gateConsistent_of_approved rfl).2 ⟨rfl, hq, he, rfl, rfl, hunlocked, hhalted, hfamily⟩
    · rw [ht, hcheck]
      exact toNat_polls_le hk
  · obtain ⟨hseq', herror', hextract'⟩ := hstop.kept
    obtain ⟨hstatus, hwarn', hbudget⟩ := hstop.written hpolls
    have hraised : t.error = code := by
      rw [ht, hcheck, state_failGate code (herror'.trans he)]
      rfl
    refine ⟨fun habsent => ?_, ?_, ?_⟩
    · rw [← hraised, habsent] at hcode
      exact absurd hcode (by decide)
    · rw [gateConsistent_of_gateFatal (by rw [ht, hcheck]; rfl), hraised, hchip, ← hfamily, ← hwarn']
      rw [ht, hcheck]
      exact ⟨hextract'.trans hextract, hseq'.trans hq, hstatus, rfl, hcode⟩
    · rw [ht, hcheck]
      exact hbudget

/-! ### Calls and steps -/

/-- Every completed call keeps the registers' invariant. -/
theorem registersConsistent_runCall {c : Call} {s t : State} (hs : RegistersConsistent s)
    (h : runCall c s = .next t) : RegistersConsistent t := by
  by_cases ha : c = .attach
  · subst ha
    exact registersConsistent_callAttach hs h
  by_cases hg : c = .gate
  · subst hg
    exact registersConsistent_callGate hs h
  by_cases hr : c = .reset
  · subst hr
    obtain rfl : resetBlock s = t := Host.Outcome.next.inj h
    exact registersConsistent_resetBlock s
  · have hrest : LinkAtRest s := hs.2.1
    exact (keepsSequencer_runCall h ha hg hr).registersConsistent ((moved_runCall h hr).linkAtRest hrest) hs

/-- Settles O51: the step does nothing, or runs a call on the state with that call taken off. -/
theorem stepKeepsRegistersConsistent : Obligations.StepKeepsRegistersConsistent := by
  intro s t hs h
  rcases step_next h with ⟨-, rfl⟩ | ⟨c, rest, -, hrun⟩
  · exact hs
  · have htaken : RegistersConsistent { s with calls := rest } := hs
    exact registersConsistent_runCall htaken hrun

/-! ### What the invariant says of a fatal end and of `extract_ok` -/

/-- Settles O50: Idle and GateIdle with Verified are the only states the two operations start in, and in the first no
error stands; `gate` asks for none itself. -/
theorem fatalEndStopsTheSequencer : Obligations.FatalEndStopsTheSequencer := by
  rintro s ⟨ho, -, hattach, -⟩ he
  refine ⟨callAttach_of_not_idle _ ho fun hq => ?_, callGate_of_not_ready _ ho fun ⟨_, _, hnone⟩ => he hnone⟩
  obtain ⟨-, hnone, -⟩ := (attachConsistent_of_idle hq).1 hattach
  exact he hnone

/-- Between operations `extract_ok` is 1 exactly when `gate` is Approved (R37, R49). -/
theorem GateConsistent.extractOk_iff {s : State} (h : GateConsistent s) : s.extractOk = true ↔ s.gate = .approved := by
  cases hg : s.gate with
  | gateIdle =>
    obtain ⟨hextract, -⟩ := (gateConsistent_of_gateIdle hg).1 h
    simp [hextract]
  | approved =>
    obtain ⟨hextract, -⟩ := (gateConsistent_of_approved hg).1 h
    simp [hextract]
  | gateFatal =>
    obtain ⟨hextract, -⟩ := (gateConsistent_of_gateFatal hg).1 h
    simp [hextract]
  | gateLock | gateOsc | gateHalt =>
    rw [GateConsistent, hg] at h
    exact h.elim

/-- A code read is allowed exactly while `extract_ok` is 1 (R213 (b)). -/
theorem allowsRead_eq_of_isCodeRead {s : State} {i : Instr} (h : isCodeRead i = true) :
    allowsRead s i = s.extractOk := by
  rw [allowsRead, h]
  rfl

/-- Settles O54: the invariant holds after the step, and says what an approval means. -/
theorem approvalMeansVerifiedAndHalted : Obligations.ApprovalMeansVerifiedAndHalted := by
  intro s t hs h
  obtain ⟨-, -, hattach, hgate, -⟩ := stepKeepsRegistersConsistent s t hs h
  refine ⟨hgate.extractOk_iff, fun i hi => ?_, fun hextract => ?_⟩
  · rw [allowsRead_eq_of_isCodeRead ((isCodeRead_iff i).2 hi)]
    exact hgate.extractOk_iff
  · obtain ⟨-, hq, he, -, -, hunlocked, hhalted, -⟩ :=
      (gateConsistent_of_approved (hgate.extractOk_iff.1 hextract)).1 hgate
    obtain ⟨-, -, hvalid, -⟩ := (attachConsistent_of_verified hq).1 hattach
    exact ⟨hq, he, hvalid, hunlocked, hhalted⟩

/-- Every call but a gating and a reset of the block leaves `extract_ok` (R276). -/
theorem extractOk_runCall {c : Call} {s t : State} (h : runCall c s = .next t) (hg : c ≠ .gate) (hr : c ≠ .reset) :
    t.extractOk = s.extractOk := by
  by_cases ha : c = .attach
  · subst ha
    obtain ⟨-, -, -, -, -, -, -, -, hextract, -⟩ := attachFrame s t h
    exact hextract
  · rw [keepsSequencer_runCall h ha hg hr]

/-- Every step but a gating and a reset of the block leaves `extract_ok` (R276). -/
theorem extractOk_step {s t : State} (h : step s = .next t) :
    t.extractOk = s.extractOk ∨ ∃ c rest, s.calls = c :: rest ∧ (c = .gate ∨ c = .reset) ∧
      runCall c { s with calls := rest } = .next t := by
  rcases step_next h with ⟨-, rfl⟩ | ⟨c, rest, hcalls, hrun⟩
  · exact .inl rfl
  by_cases hc : c = .gate ∨ c = .reset
  · exact .inr ⟨c, rest, hcalls, hc, hrun⟩
  · obtain ⟨hg, hr⟩ := not_or.1 hc
    exact .inl (extractOk_runCall hrun hg hr :)

/-- Settles O58: what a client may read depends on `extract_ok` alone. -/
theorem extractOkIsNotUpdated : Obligations.ExtractOkIsNotUpdated := by
  intro s t h hother
  rcases extractOk_step h with hkept | ⟨c, rest, hcalls, rfl | rfl, -⟩
  · exact ⟨hkept, fun i => by rw [allowsRead, allowsRead, hkept]⟩
  · exact absurd hcalls (hother rest).1
  · exact absurd hcalls (hother rest).2

/-- A gating that turns `extract_ok` to 1 has passed, and ends Approved (R188, R192). -/
theorem passes_of_callGate {s t : State} (h : callGate Config.sequencing s = .next t) (hoff : s.extractOk = false)
    (hon : t.extractOk = true) : t.gate = .approved ∧ ∃ k, k ≤ 50 ∧ s.passesAfter k := by
  obtain ⟨-, -, -, rfl⟩ := callGate_next h
  rcases gate_cases s with ⟨k, hk, hpass, hcheck⟩ | ⟨u, code, hstop, -, hcheck⟩
  · rw [hcheck]
    exact ⟨rfl, k, hk, hpass⟩
  · obtain ⟨-, -, hextract⟩ := hstop.kept
    rw [hcheck] at hon
    exact absurd ((hextract.trans hoff).symm.trans hon) Bool.false_ne_true

/-- Settles O55: no other call sets `extract_ok`, and in a gating that passes no byte up to the stable one is locked. -/
theorem onlyAnUnlockedGatingApproves : Obligations.OnlyAnUnlockedGatingApproves := by
  intro s t h hoff hon
  rcases extractOk_step h with hkept | ⟨c, rest, hcalls, rfl | rfl, hrun⟩
  · exact absurd (hoff.symm.trans (hkept.symm.trans hon)) Bool.false_ne_true
  · obtain ⟨hgate, k, hk, hs, hunlocked, hhalted⟩ := passes_of_callGate hrun hoff hon
    exact ⟨⟨rest, hcalls⟩, hgate, k, hk, fun j hj => hs.unlocked hj, hs.2.2, hunlocked, hhalted⟩
  · obtain rfl := Host.Outcome.next.inj hrun
    exact absurd hon Bool.false_ne_true

end Sys2Proof.Machine
end

section
/-! The data line between operations (10_state R48): which calls end with it IN, and which keep it there. -/

namespace Sys2Proof.Machine

/-- An instruction, an attach and a gating end with the line IN (R48, R140, R182). -/
theorem dataDir_runCall_of_exchange {c : Call} {s t : State} (h : runCall c s = .next t)
    (hc : c = .attach ∨ c = .gate ∨ (∃ op req, c = .exchange op req) ∨ ∃ p, c = .remote p) :
    t.link.dataDir = .inp := by
  have hinstruction {sp : Space} {bytes : List Byte} (hbytes : runBytes sp bytes s = .next t) :
      t.link.dataDir = .inp := by
    obtain ⟨i, -, hi⟩ := runBytes_next hbytes
    obtain ⟨-, -, rfl⟩ := exec_next hi
    rfl
  rcases hc with rfl | rfl | ⟨op, req, rfl⟩ | ⟨p, rfl⟩
  · obtain ⟨evs, n, ht⟩ := attachWrites_of_callAttach h
    rw [ht]
    rfl
  · obtain ⟨⟨evs, n, ht⟩, -⟩ := gateWrites_of_callGate h
    rw [ht]
    rfl
  · exact hinstruction h
  · exact hinstruction h

/-- Every call but `set_dir` keeps a line that is IN (R48). -/
theorem dataDir_runCall_kept {c : Call} {s t : State} (h : runCall c s = .next t) (hd : ∀ d, c ≠ .setDir d)
    (hin : s.link.dataDir = .inp) : t.link.dataDir = .inp := by
  rcases runCall_next h with ⟨i, hbytes, -⟩ | ⟨d, rfl, -⟩ | ⟨-, -, -, rfl⟩ | ⟨v, -, -, -, -, rfl⟩ |
    ⟨-, -, -, -, rfl⟩ | ⟨x, -, -, -, -, rfl⟩ | ⟨-, -, -, -, rfl⟩ | ⟨ha, -⟩ | ⟨hg, -⟩ | ⟨-, rfl⟩
  · exact dataDir_runCall_of_exchange h (.inr (.inr hbytes))
  · exact absurd rfl (hd d)
  · rw [pulseClock_eq]
    exact hin
  · rw [writeBit_eq]
    exact hin
  · rw [readBit_snd]
    exact hin
  · rw [writeByte_eq]
    exact hin
  · rw [readByte_snd]
    exact hin
  · exact dataDir_runCall_of_exchange h (.inl ha)
  · exact dataDir_runCall_of_exchange h (.inr (.inl hg))
  · rfl

/-- Settles O56: the step runs the oldest call, and where there is none the line stays as it is. -/
theorem lineIsInBetweenExchanges : Obligations.LineIsInBetweenExchanges := by
  refine ⟨fun s t c rest hcalls hc h => ?_, fun s t h hd hin => ?_⟩
  · rcases step_next h with ⟨hnone, -⟩ | ⟨c', rest', hcalls', hrun⟩
    · cases hnone.symm.trans hcalls
    · cases hcalls.symm.trans hcalls'
      exact dataDir_runCall_of_exchange hrun hc
  · rcases step_next h with ⟨-, rfl⟩ | ⟨c, rest, hcalls, hrun⟩
    · exact hin
    · refine dataDir_runCall_kept hrun (fun d hc => hd d rest ?_) hin
      rw [hcalls, hc]

end Sys2Proof.Machine
end

section
/-! A step as the running of one call (00_scope R7, R13): which operation each call runs, the reset of the block
(70_reset R260), the closed session (10_state R25), and the six primitives (00_scope R11). -/

namespace Sys2Proof.Machine

/-! ### The oldest call -/

/-- A step runs the oldest call on the state with that call taken off. -/
theorem step_of_calls {s : State} {c : Call} {rest : List Call} (hc : s.calls = c :: rest) :
    step s = runCall c { s with calls := rest } := by
  rw [step, takeCall, hc]

theorem step_of_no_calls {s : State} (hc : s.calls = []) : step s = .next s := by
  rw [step, takeCall, hc]

/-- Settles O12: each call's arm of the dispatch is its operation. -/
theorem stepRunsOperations : Obligations.StepRunsOperations :=
  ⟨fun _ => step_of_no_calls, fun _ _ => ⟨fun _ => step_of_calls, step_of_calls, fun _ => step_of_calls, step_of_calls,
    fun _ => step_of_calls, step_of_calls, step_of_calls, step_of_calls⟩⟩

/-- The call a table word stands for runs the instruction the word decodes to. -/
theorem runCall_callOfBytes {bytes rest : List Byte} {i : Instr} (h : decodeTableBytes bytes = .ok (i, rest))
    (s : State) : runCall (callOfBytes bytes) s = exec i s := by
  cases bytes with
  | nil => cases h
  | cons b bytes =>
    have hwhole := decodeWhole_take_of_decode h
    rw [callOfBytes]
    cases hspace : tableSpace b with
    | frame => exact runBytes_of_ok (hspace ▸ hwhole) s
    | payload => exact runBytes_of_ok (hspace ▸ hwhole) s

/-- Settles O11: a client's bytes are decoded whole, a table word's up to the length of its encoding. -/
theorem stepRunsDecodedInstruction : Obligations.StepRunsDecodedInstruction := by
  refine ⟨fun s op req rest i hc hd => ?_, fun s payload rest i hc hd => ?_, fun s nbits w i hw => ?_⟩
  · rw [step_of_calls hc]
    exact runBytes_of_ok hd _
  · rw [step_of_calls hc]
    exact runBytes_of_ok hd _
  · rw [step_of_calls (s := s.withFetchWord nbits w) rfl]
    unfold decodeTableWord at hw
    split at hw
    · next hbytes =>
      obtain rfl := Option.some.inj hw
      exact runCall_callOfBytes hbytes s
    · cases hw

/-- Settles O2: the call writes every field but the calls and the target's answers, which it leaves. -/
theorem resetCallStartsASession : Obligations.ResetCallStartsASession :=
  fun _ _ hc => ⟨_, step_of_calls hc, rfl, rfl, rfl, rfl⟩

/-! ### The closed session -/

theorem whenOpen_of_closed {s : State} (k : Host.Outcome State Fault Refusal) (hc : s.session = .closed) :
    whenOpen s k = .refused .sessionClosed := by
  rw [whenOpen, hc, if_neg (by decide)]

theorem exec_of_closed (i : Instr) {s : State} (hc : s.session = .closed) :
    exec i s = .refused .sessionClosed := by
  rw [exec_eq_xchg]
  exact whenOpen_of_closed _ hc

/-- A byte form is refused while the session is closed: by the decoder, or as the instruction it spells (R25). -/
theorem runBytes_of_closed (sp : Space) (bytes : List Byte) {s : State} (hc : s.session = .closed) :
    ∃ r, runBytes sp bytes s = .refused r := by
  cases hd : decodeWhole sp bytes with
  | error e => exact ⟨_, runBytes_of_error hd s⟩
  | ok i => exact ⟨_, (runBytes_of_ok hd s).trans (exec_of_closed i hc)⟩

theorem runCall_of_closed {c : Call} {s : State} (hc : s.session = .closed) (hr : c ≠ .reset) :
    ∃ r, runCall c s = .refused r := by
  cases c with
  | exchange op req => exact runBytes_of_closed _ _ hc
  | remote payload => exact runBytes_of_closed _ _ hc
  | setDir d => exact ⟨_, whenOpen_of_closed _ hc⟩
  | pulseClock => exact ⟨_, whenOpen_of_closed _ hc⟩
  | writeBit v => exact ⟨_, whenOpen_of_closed _ hc⟩
  | readBit => exact ⟨_, whenOpen_of_closed _ hc⟩
  | writeByte x => exact ⟨_, whenOpen_of_closed _ hc⟩
  | readByte => exact ⟨_, whenOpen_of_closed _ hc⟩
  | attach => exact ⟨_, whenOpen_of_closed _ hc⟩
  | gate => exact ⟨_, whenOpen_of_closed _ hc⟩
  | reset => exact absurd rfl hr

/-- Settles O13: every call but a reset of the block asks for an open session, or is refused by the decoder. -/
theorem closedSessionRefuses : Obligations.ClosedSessionRefuses := by
  refine ⟨fun s c rest hclosed hc hr => ?_, fun i s => exec_of_closed i⟩
  rw [step_of_calls hc]
  exact runCall_of_closed hclosed hr

/-! ### Primitives -/

/-- Settles O14: the definitions, with the event of each in its place. -/
theorem primitivesAppendOneEvent : Obligations.PrimitivesAppendOneEvent :=
  fun _ _ _ _ => ⟨rfl, rfl, rfl, rfl, rfl, rfl⟩

end Sys2Proof.Machine
end

section
/-! The environment's assumptions: what the operations do on a dead or echoing link (20_memory R83, 60_exceptions R237),
and what a code read hands back under the contract (20_memory R86, 43_boundary R211 to R216). -/

namespace Sys2Proof.Machine

/-! ### An echoing link -/

theorem State.EchoLink.mono {s : State} {b : Byte} {m n : Nat} (h : s.EchoLink b n) (hle : m ≤ n) : s.EchoLink b m :=
  fun k hk => h k (by omega)

/-- The bytes an echoing link presents. -/
theorem State.EchoLink.upcomingBytes {s : State} {b : Byte} {n : Nat} (h : s.EchoLink b n) :
    s.upcomingBytes n = List.replicate n b := by
  rw [State.upcomingBytes, List.map_congr_left fun k hk => h k (List.mem_range.1 hk), List.map_const',
    List.length_range]

/-- The identity an echoing link presents: the byte twice (R97). -/
theorem State.EchoLink.upcomingId {s : State} {b : Byte} {n j : Nat} (h : s.EchoLink b n) (hj : 2 * j + 1 < n) :
    s.upcomingId j = joinBytes b b := by
  have hhi := h (2 * j) (by omega)
  have hlo := h (2 * j + 1) hj
  rw [State.upcomingId, show 16 * j = 8 * (2 * j) by omega, show 8 * (2 * j) + 8 = 8 * (2 * j + 1) by omega, hhi, hlo]

/-- Two equal bytes are no identity exactly where they are 0x00 or 0xFF (R97). -/
theorem identityValid_joinBytes_self (b : Byte) :
    identityValid (joinBytes b b) = false ↔ b = 0x00 ∨ b = 0xFF := by
  have htwice (x : Byte) : joinBytes b b = joinBytes x x ↔ b = x := by
    refine ⟨fun h => ?_, fun h => by rw [h]⟩
    rw [← family_joinBytes b b, h, family_joinBytes]
  rw [identityValid_eq_false_iff]
  exact or_congr (htwice 0x00) (htwice 0xFF)

/-- An attach on an echoing link: LinkAbsent after three attempts for 0x00 and 0xFF, Verified at once for any other byte
(R83, R183). -/
theorem callAttach_of_echo {s : State} {b : Byte} (ho : s.session = .opened) (hc : s.link.clk = false)
    (hecho : s.EchoLink b 6) (hq : s.seq = .idle) (h0 : s.attempts = 0) (he : s.error = .none) :
    ∃ t, callAttach Config.sequencing s = .next t ∧ t.chipId = joinBytes b b ∧
      if b = 0x00 ∨ b = 0xFF then t.seq = .failed ∧ t.error = .linkAbsent ∧ t.attempts = 3
      else t.seq = .verified ∧ t.error = .none ∧ t.attempts = 1 := by
  have hid (j : Nat) (hj : j < 3) : s.upcomingId j = joinBytes b b := hecho.upcomingId (by omega)
  split
  · next hb =>
    refine ⟨_, attachEndsInLinkAbsent s ho hc hq h0 he fun j hj => ?_, hid 2 (by decide), rfl, rfl,
      attempts_afterAttempts h0 3⟩
    rw [hid j hj]
    exact (identityValid_joinBytes_self b).2 hb
  · next hb =>
    refine ⟨_, attachVerifiesAtFirstValidIdentity s 1 ho hc hq h0 le_rfl (by decide) nofun ?_, hid 0 (by decide), rfl,
      he, attempts_afterAttempts h0 1⟩
    rw [hid _ (by decide), ← Bool.not_eq_false, identityValid_joinBytes_self]
    exact hb

/-- Every instruction hands the echo back, once per response byte (R83, R140). -/
theorem exec_of_echo {s : State} {b : Byte} (i : Instr) (ho : s.session = .opened) (hc : s.link.clk = false)
    (hecho : s.EchoLink b 6) : ∃ t, exec i s = .next t ∧ t.returned = .bytes (List.replicate i.record.nresp.val b) := by
  have hready := exec_ready i s ho hc
  refine ⟨_, hready, ?_⟩
  rw [exec_returned hready, (hecho.mono (by have := nresp_record i; omega)).upcomingBytes]

/-! ### A dead link -/

/-- A link stuck high answers the first status read with 0xFF, which shows the lock (R237). -/
theorem callGate_of_stuck_high {s : State} (ho : s.session = .opened) (hc : s.link.clk = false) (hq : s.seq = .verified)
    (hg : s.gate = .gateIdle) (he : s.error = .none) (hecho : s.EchoLink 0xFF 51) :
    ∃ t, callGate Config.sequencing s = .next t ∧ t.gate = .gateFatal ∧ t.extractOk = s.extractOk ∧
      t.error = .debugLocked ∧ t.status = 0xFF := by
  have hfirst : s.upcomingByte (8 * 0) = 0xFF := hecho 0 (by decide)
  obtain ⟨polls, -, -, ht⟩ :=
    gateEndsLockedBeforeHalt s 0 ho hc hq hg he (Nat.zero_le _) nofun (by rw [hfirst]; decide)
  exact ⟨_, ht, rfl, rfl, rfl, hfirst⟩

/-- A link stuck low answers every status read with 0x00: unlocked, the oscillator unstable (R237). -/
theorem callGate_of_stuck_low {s : State} (ho : s.session = .opened) (hc : s.link.clk = false) (hq : s.seq = .verified)
    (hg : s.gate = .gateIdle) (he : s.error = .none) (hecho : s.EchoLink 0x00 51) :
    ∃ t, callGate Config.sequencing s = .next t ∧ t.gate = .gateFatal ∧ t.extractOk = s.extractOk ∧
      t.error = .oscillatorUnstable ∧ t.oscPolls = 50 ∧ t.status = 0x00 := by
  have hunstable (j : Nat) (hj : j < 51) : s.stillUnstable j := by
    rw [State.stillUnstable, hecho j hj]
    decide
  obtain ⟨ht, -⟩ := gateEndsUnstable s ho hc hq hg he hunstable
  exact ⟨_, ht, rfl, rfl, rfl, rfl, hecho 50 (by decide)⟩

/-- Settles O48: a link that reads constant echoes 0xFF or 0x00, and an echo decides every operation. -/
theorem deadLinkOutcomes : Obligations.DeadLinkOutcomes := by
  refine ⟨fun s level ho hc he hdead => ?_, fun s b ho hc hecho =>
    ⟨callAttach_of_echo ho hc hecho, fun i => exec_of_echo i ho hc hecho⟩⟩
  have hecho := deadLink_echo hdead
  refine ⟨fun hq h0 => ?_, fun hq hg => ?_⟩
  · obtain ⟨t, ht, hchip, hend⟩ := callAttach_of_echo ho hc (hecho.mono (by decide)) hq h0 he
    have hinvalid :
        (if level then 0xFF else 0x00) = (0x00 : Byte) ∨ (if level then 0xFF else 0x00) = (0xFF : Byte) := by
      cases level <;> decide
    rw [if_pos hinvalid] at hend
    obtain ⟨hseq, herror, -⟩ := hend
    exact ⟨t, ht, hseq, herror, hchip.trans (by cases level <;> rfl)⟩
  · cases level with
    | true =>
      obtain ⟨t, ht, hgate, hextract, herror, hstatus⟩ := callGate_of_stuck_high ho hc hq hg he hecho
      exact ⟨t, ht, hgate, hextract, herror, nofun, fun _ => hstatus⟩
    | false =>
      obtain ⟨t, ht, hgate, hextract, herror, hpolls, hstatus⟩ := callGate_of_stuck_low ho hc hq hg he hecho
      exact ⟨t, ht, hgate, hextract, herror, fun _ => ⟨hpolls, hstatus⟩, nofun⟩

/-! ### A code read under the contract -/

/-- Settles O59: the contract's three effects compose to an accumulator of 0 at the address set; a client's own spelling
ships the same bytes. -/
theorem codeByteReadUnderContract : Obligations.CodeByteReadUnderContract := by
  intro s addr imm code ho hc
  refine ⟨⟨_, _, _, exec_ready (.setPointer addr) s ho hc, exec_ready .clearAccumulator _ ho rfl,
    exec_ready .readCodeByte _ ho rfl, ?_⟩, ⟨_, exec_ready (.debugInstr1 0xE4) s ho hc, ?_⟩,
    ⟨_, exec_ready (.debugInstr2 0x74 imm) s ho hc, ?_⟩⟩
  · intro t0 t1 t2 t3 hunlocked hset hclear hread
    obtain ⟨-, hpointer⟩ := (executes_payload rfl).1 hset
    obtain ⟨-, hacc, hkept⟩ := (executes_payload rfl).1 hclear
    obtain ⟨hanswer, hcode, -⟩ := (executes_payload rfl).1 hread
    refine ⟨congrArg (fun x => Returned.bytes [x]) hanswer, fun hflash => ?_⟩
    have haddr : t2.pointer.toNat + t2.acc.toNat = addr.toNat := by
      rw [hkept, show t1.pointer = addr from hpointer, hacc]
      rfl
    rw [haddr] at hcode
    exact congrArg (fun x => Returned.bytes [x]) (hanswer.trans (hcode hunlocked hflash))
  · intro t t' h
    obtain ⟨hanswer, hacc, -⟩ := (executes_payload rfl).1 ((executes_congr (j := .clearAccumulator) rfl).1 h)
    exact congrArg (fun x => Returned.bytes [x]) (hanswer.trans hacc)
  · intro t t' h
    obtain ⟨hanswer, hacc, -⟩ :=
      (executes_payload rfl).1 ((executes_congr (j := .loadAccumulatorImmediate imm) rfl).1 h)
    exact congrArg (fun x => Returned.bytes [x]) (hanswer.trans hacc)

end Sys2Proof.Machine
end

section
/-! The extractor's block read (43_boundary R218): its exchanges and pulses, and its code reads after clears. -/

namespace Sys2Proof.Machine

/-- Three exchanges per offset, the last without its increment (R218). -/
theorem length_readOffsets (n : Nat) : (readOffsets (n + 1)).length = 3 * n + 2 := by
  induction n with
  | zero => rfl
  | succ n ih => rw [readOffsets, List.length_cons, List.length_cons, List.length_cons, ih]; omega

theorem mem_readOffsets {i : Instr} {n : Nat} (h : i ∈ readOffsets n) :
    i = .clearAccumulator ∨ i = .readCodeByte ∨ i = .incrementPointer := by
  induction n using readOffsets.induct with
  | case1 => simp [readOffsets] at h
  | case2 =>
    simp only [readOffsets, List.mem_cons, List.not_mem_nil, or_false] at h
    tauto
  | case3 n ih =>
    simp only [readOffsets, List.mem_cons] at h
    tauto

/-- Each is carried by DEBUG_INSTR_1: two bytes sent and one read, 24 pulses (R218). -/
theorem sum_pulses_readOffsets (n : Nat) :
    ((readOffsets n).map fun i => 8 * ((wireBytes i).length + 1)).sum = 24 * (readOffsets n).length := by
  have hpulses : ∀ i ∈ readOffsets n, 8 * ((wireBytes i).length + 1) = 24 := by
    intro i hi
    rcases mem_readOffsets hi with rfl | rfl | rfl <;> rfl
  rw [List.map_congr_left hpulses, List.map_const', List.sum_replicate, smul_eq_mul, Nat.mul_comm]

/-- One code read per offset (R218). -/
theorem count_readCodeByte_readOffsets (n : Nat) : (readOffsets n).count .readCodeByte = n := by
  induction n using readOffsets.induct with
  | case1 => rfl
  | case2 => rfl
  | case3 n ih => simp [readOffsets, ih]

/-- Each code read stands immediately after a clear, whatever came before the first (R213 (a)). -/
theorem readsAfterClears_readOffsets (n : Nat) (cleared : Bool) :
    readsAfterClearsFrom cleared (readOffsets n) = true := by
  induction n using readOffsets.induct generalizing cleared with
  | case1 => rfl
  | case2 => cases cleared <;> rfl
  | case3 n ih =>
    have hclear : isCodeRead .clearAccumulator = false ∧ isClear .clearAccumulator = true := by decide
    have hincrement : isCodeRead .incrementPointer = false := by decide
    simp [readOffsets, readsAfterClearsFrom, hclear, hincrement, ih]

/-- Settles O60: the offsets' exchanges by induction on the block's size, with the one pointer set before them. -/
theorem blockReadCounts : Obligations.BlockReadCounts := by
  refine ⟨fun start size hpos => ?_, by decide, by decide, by decide, by decide, by decide⟩
  obtain ⟨n, rfl⟩ := Nat.exists_eq_add_of_le' hpos
  have hset : Instr.setPointer start ∉ readOffsets (n + 1) := fun h => by simpa using mem_readOffsets h
  refine ⟨?_, ?_, ?_, ?_, readsAfterClears_readOffsets (n + 1) false⟩
  · rw [blockRead, List.length_cons, length_readOffsets]
    omega
  · rw [blockRead, List.map_cons, List.sum_cons, sum_pulses_readOffsets, length_readOffsets]
    rfl
  · have hne : Instr.setPointer start ≠ .readCodeByte := nofun
    rw [blockRead, List.count_cons_of_ne hne, count_readCodeByte_readOffsets]
  · rw [blockRead, List.count_cons_self, List.count_eq_zero.2 hset]

end Sys2Proof.Machine
end
